-- ==== Sys2Proof/Word.lean ====
section
/-! DEFINITION. The word types of the model: bytes and logical stamps (01_boundary.md R23, 02_tick.md R49). -/

namespace Sys2Proof

/-- One byte of a bus, a memory or a frame. -/
abbrev Byte := BitVec 8

/-- A 64-bit logical stamp (R49): tick in [63:24], logical cycle in [23:3], quarter in [2:1]. -/
abbrev Stamp := BitVec 64

end Sys2Proof
end

