-- ==== Sys2Proof/Syntax.lean ====
section
/-! DEFINITION. The commands of the block: one constructor for each row of opcode_table.json, and the
records their operands use (endpoint beats, decoded descriptors, matrix bursts). -/

namespace Sys2Proof

/-- One beat of an endpoint bus (R23): payload, sideband, logical stamp, odd parity, quarter enables.
A shorter list stands for bytes that are zero beyond its end. -/
structure Beat where
  data  : List Byte := []
  sb    : List Byte := []
  stamp : Stamp := 0
  par   : BitVec 37 := 0
  qen   : BitVec 4 := 0
  deriving DecidableEq, Repr

/-- A beat offered on a write-side endpoint bus during a round (R128): `early` says that `VALID` was
presented in an earlier cycle and is still held. -/
structure Offer where
  endpt : Nat
  beat  : Beat
  early : Bool := true
  deriving DecidableEq, Repr

/-- An error that arises in a stored word of a bank array (R106, R107): which word, whether one bit or two bits of it no
longer match, and, for two, which of them are bits of the word itself: such a word is delivered as read. -/
structure Upset where
  bank   : Nat
  sb     : Bool := false
  entry  : Nat
  word   : Nat
  double : Bool
  flip   : BitVec 64 := 0
  deriving DecidableEq, Repr

/-- A decoded 32-byte descriptor (R241 to R246). `slot` holds `SLOT`, `SRC_SLOT`, `BKT_BASE` or `DST_BASE`,
which all lie at bytes 12 and 13. A field that the opcode does not have is zero. -/
structure Desc where
  opc       : Nat := 0
  cadence   : Nat := 0
  qsplit    : Bool := false
  opf       : Bool := false
  port      : Nat := 0
  endpt     : Nat := 0
  slotCycle : Nat := 0
  req       : Nat := 0
  deadline  : Nat := 0
  slot      : Nat := 0
  start     : Nat := 0
  nrows     : Nat := 0
  rgrp      : Nat := 0
  epoch     : Nat := 0
  shape     : Nat := 0
  scaleSlot : Nat := 0
  nslots    : Nat := 0
  base      : Nat := 0
  stride    : Int := 0
  ifirst    : Nat := 0
  nidx      : Nat := 0
  srcBase   : Nat := 0
  srcTiles  : Nat := 0
  opid      : Nat := 0
  nexp      : Nat := 0
  bktTiles  : Nat := 0
  cap       : Nat := 0
  resBase   : Nat := 0
  resTiles  : Nat := 0
  accPort   : Nat := 0
  dstTiles  : Nat := 0
  choices   : Nat := 0
  dst       : Nat := 0
  wport     : Nat := 0
  chan      : Nat := 0
  ctx       : Nat := 0
  limit     : Nat := 0
  pstate    : Nat := 0
  pmask     : Nat := 0
  gmask     : Nat := 0
  markId    : Nat := 0
  deriving DecidableEq, Repr

/-- A burst of a service matrix master (R292): master number, direction, address, bytes per beat, number of
beats, lock attribute, and for a write its bytes with their strobes (`none`: strobe off). -/
structure Burst where
  master : Nat
  write  : Bool := false
  addr   : Nat
  size   : Nat
  beats  : Nat
  lock   : Bool := false
  data   : List (Option Byte) := []
  /-- the read meets a correctable error in a memory of the sequencer (11_sequencer.md R285) -/
  corrected : Bool := false
  deriving DecidableEq, Repr

/-- A row write that reaches its bank cycle, by number; `ue`: it meets an uncorrectable error (03_tile_registers.md R71). -/
structure RowEnd where
  wid : Nat
  ue  : Bool := false
  deriving DecidableEq, Repr

/-- The errors that one transfer meets inside Doluo (16_faults.md R371): `read`, a failed recheck at the bus driver of its read port;
`write`, a failed parity check at the arrival on its write port; `buf`, an uncorrectable error in the merge-buffer row of that number. -/
structure PathErr where
  read  : Bool := false
  write : Bool := false
  buf   : Option Nat := none
  deriving DecidableEq, Repr

/-- A row that is ready for its root write; `bufErr`: the merge-buffer row of that number, which holds it, meets an uncorrectable error
(16_faults.md R371). -/
structure RootRow where
  row    : Nat
  bufErr : Option Nat := none
  deriving DecidableEq, Repr

/-- The outcome the memory side of a save or restore reports (R366, R367): done, a terminal memory fault, or
a matrix abort of M3. -/
inductive SrEnd where
  | moved | memoryFault | matrixAbort
  deriving DecidableEq, Repr

/-- The commands. `node` is the ring address of the requester, to whom the answer goes (R315). -/
inductive Instr where
  /-- `COLD_RST_N` low for `cycles` cycles of its clock (R14). -/
  | coldReset (cycles : Nat)
  /-- Release of `COLD_RST_N`; `romOk`: the boot ROM's CRC check of step 1 passes (R278). -/
  | coldResetRelease (romOk : Bool)
  | warmReset (cycles : Nat)
  | warmResetRelease (romOk : Bool)
  | ringReset (cycles : Nat)
  | wrapperReset
  | progCtrlStart (node : Nat)
  | progCtrlReturn (node : Nat)
  /-- A write of `value` to `MAP_CTRL` (R274). -/
  | remapWrite (value : Nat)
  | remapSwitch
  | serviceFirmwareStart
  /-- A pulse on `SYNC_IN`, sampled high on `width` consecutive cycles (R16). -/
  | syncInPulse (width : Nat)
  | syncWindowClose
  | holdInRise
  | holdInFall
  | counterFreeze
  | counterResume
  | holdNetworkFault
  | tickAbort
  | pwrAckRise
  | pwrAckTimeout
  | railLost
  | wakeComplete
  | tickBoundary
  | guardBegin
  | faultSlackEnd
  | scrubSlot
  /-- The dependency check of descriptor `idx` of the running tick program (R42). -/
  | dependencyCheck (idx : Nat)
  | tcfg (d : Desc)
  | trel (d : Desc)
  | tcancel (d : Desc)
  | tld (d : Desc)
  | tst (d : Desc)
  | tfeed (d : Desc)
  | tfeedt (d : Desc)
  | ttake (d : Desc)
  | tgather (d : Desc)
  | troute (d : Desc)
  | tmerge (d : Desc)
  | treturn (d : Desc)
  | tmove (d : Desc)
  | tconv (d : Desc)
  | tsend (d : Desc)
  | trecv (d : Desc)
  | tsave (d : Desc)
  | trest (d : Desc)
  | pwr (d : Desc)
  | mark (d : Desc)
  | tend (d : Desc)
  /-- The next scheduled read access of operation `op`: `ready` is the endpoint's `READY` in the arrival
  cycle, `portErr` the port internal errors (R378), `upsets` the array errors that have arisen (R107). -/
  | scheduledReadAccess (op : Nat) (ready : Bool) (portErr : PathErr) (upsets : List Upset)
  /-- The next scheduled take of operation `op`; `none` when the peer drives no `VALID`. -/
  | scheduledWriteTake (op : Nat) (beat : Option Beat) (portErr : Bool)
  /-- The row write numbered `wid` of the write path reaches the banks; `ue`: it meets an uncorrectable error (R71, R82). -/
  | rowWriteComplete (wid : RowEnd)
  | tileCommit (op : Nat)
  | replayStart
  /-- One round of a port's Sumac with the beats offered on the write-side buses; `portErr`: the errors that the transfer of a requester
meets if it is granted, by requester id. -/
  | sumacRound (port : Nat) (offers : List Offer) (portErr : List (Nat × PathErr)) (upsets : List Upset)
  | hogPenaltyEnd (port : Nat) (id : Nat)
  | openReadDeliver (endpt : Nat) (ready : Bool)
  | epReadyTimeout (endpt : Nat)
  | validWithdrawn (endpt : Nat) (qen : BitVec 4)
  | spuriousValid (endpt : Nat) (qen : BitVec 4)
  | rowFault (tn : Nat) (row : Nat) (cause : Nat)
  | faultResolved (tn : Nat) (cause : Nat)
  | faultTerminal (tn : Nat) (cause : Nat)
  | storedBelow (tn : Nat) (row : Nat)
  | abortAcknowledged (tn : Nat) (row : Nat)
  | lsRowTimeout (tn : Nat)
  | abortAckTimeout (tn : Nat)
  | mergeContribution (b : Beat)
  | shardClose (b : Beat)
  /-- A round of `WRB` in which operation `op` offers the ready root write of row `row` (R180). -/
  | mergeRootReady (op : Nat) (row : RootRow)
  | routeRow (b : Beat)
  | routeClose (b : Beat)
  | returnRow (b : Beat)
  | returnClose (b : Beat)
  | tickUnitMismatch
  | conversionMismatch (port : Nat)
  /-- A parity error inside the matrix; target 255 when none is concerned. -/
  | matrixParityError (target : Nat)
  | bridgeSendCrcMismatch
  | seqRamUncorrectable (dataRam : Bool)
  | watchdogExpiry
  /-- `ecc`: the read meets an uncorrectable error in a word of its target (R296). -/
  | matrixBurst (b : Burst) (ecc : Bool)
  | matrixTimeout (master : Nat)
  | lockTimeout (target : Nat)
  | forwardFrame (frame : List Byte)
  | expeditedRead (node : Nat) (index : Nat) (sub : Nat)
  | expeditedWrite (node : Nat) (index : Nat) (sub : Nat) (value : List Byte)
  /-- `read` is the `DIR` bit; `size` the declared size of a write. -/
  | segmentInitiate (node : Nat) (index : Nat) (sub : Nat) (read : Bool) (size : Nat)
  | segmentFrame (node : Nat) (index : Nat) (sub : Nat) (toggle : Bool) (last : Bool) (payload : List Byte)
  | requesterAbort (index : Nat) (sub : Nat) (code : Nat)
  | segmentTimeout
  | heartbeat
  | dictWrite (node : Nat) (index : Nat) (sub : Nat) (value : Nat)
  | loadImage (node : Nat) (value : Nat)
  | imageValidationDone
  | arm (node : Nat) (value : Nat)
  | run (node : Nat) (value : Nat)
  | startPulse
  | firstTickStart
  | runPulseTimeout
  | cancelEpoch (node : Nat) (value : Nat)
  | save (node : Nat) (value : Nat)
  | restore (node : Nat) (value : Nat)
  /-- The engine's work ends; `image` is what a restore's load transfers brought from memory. -/
  | saveRestoreDone (outcome : SrEnd) (image : List Byte)
  | retireBank (node : Nat) (value : Nat)
  | bist (node : Nat) (value : Nat)
  /-- The built-in test ends with these failing units: physical banks, merge buffer, Anise or Clove, trace. -/
  | bistDone (banks : List Nat) (mergeBuf : Bool) (anise : Bool) (trace : Bool)
  | stop (node : Nat) (value : Nat)
  | tileConfig (node : Nat) (value : List Byte)
  | faultAck (node : Nat) (value : Nat)
  | syncLostClear (node : Nat) (value : Nat)
  | deadReadClear (node : Nat) (value : Nat)
  | ehCountClear (node : Nat) (value : Nat)
  | hogFlagsClear (node : Nat) (value : Nat)
  | mxLockClear (node : Nat) (value : Nat)
  | reqBias (node : Nat) (port : Nat) (id : Nat) (value : Int)
  | eccInject (node : Nat) (value : Nat)
  | aniseSlot (node : Nat) (value : List Byte)
  /-- `hi`: the half of slots 2,048 to 4,095. -/
  | aniseCkpt (node : Nat) (hi : Bool) (value : List Byte)
  | cloveCkpt (node : Nat) (value : List Byte)
  | aniseColdClear (node : Nat) (value : Nat)
  | aniseInit (node : Nat) (value : Nat)
  | traceClear (node : Nat) (value : Nat)
  | pwrBlock (node : Nat) (value : Nat)
  | pwrIdlePorts (node : Nat) (value : Nat)
  | pwrIdleGroups (node : Nat) (value : Nat)
  /-- `runtime`: `FW_RUNTIME`, otherwise `FW_SERVICE`. -/
  | fwImageWrite (node : Nat) (runtime : Bool) (value : List Byte)
  /-- `hi`: `IMAGE_HI`, otherwise `IMAGE_LO`. -/
  | imageRegionWrite (node : Nat) (hi : Bool) (value : List Byte)
  | ringResetRelease
  | controlRailLoss
  /-- A frame addressed to Doluo as its bytes arrived; `early`: it ended before its last byte. -/
  | frameDiscarded (frame : List Byte) (early : Bool)
  | unmatchedBeatDiscard (endpt : Nat) (b : Beat)
  /-- The schedule thread fetches a descriptor (R269). -/
  | issueQueueFill
  deriving DecidableEq, Repr

end Sys2Proof
end

