-- ==== Sys2Proof/Decode.lean ====
section
/-! DEFINITION. opcode_table.json gives no row bits (every row's `fields` is empty): a command reaches the block
as a stimulus, not as a word, so no word spells one. The decoder of descriptors, which the block's own
schedule thread uses, is Machine/Image.lean (10_descriptors.md R241 to R246). -/

namespace Sys2Proof

/-- The command that a word spells by the table's bits: none, since no row gives bits. -/
def decodeTableWord (_nbits _w : Nat) : Option Instr := none

end Sys2Proof
end

