-- ==== Sys2Proof/Config.lean ====
section
/-! DEFINITION. What one instance or one boot ROM release fixes, and the free values: constants without a
body, so that no statement can rest on a value of them (notes/assumptions 1 and 2). -/

namespace Sys2Proof.Config

/-- A value the manual leaves open, one for each count of the counter `fresh` of State (log entry 2). -/
opaque freeValue : Nat → Nat

/-- The fuses that hold the node address and the serial number. -/
opaque nodeFuse : Nat
opaque serialFuse : Nat

/-- `NODE_ADDR`, fused in the range 2 to 254 (13_evien.md R315). -/
def nodeAddr : Byte := BitVec.ofNat 8 (2 + nodeFuse % 253)

/-- `SERIAL`, fused at manufacture, never 0 (R287, R315). -/
def serial : BitVec 64 := BitVec.ofNat 64 (1 + serialFuse % (2 ^ 64 - 1))

/-- Entries of the boot ROM's tested-pair table: service version, runtime version, stepping, silicon level. -/
opaque pairTable : List (Nat × Nat × Nat × Nat)

/-- The tested-pair table of the boot ROM, of 0 to 64 entries (R283). -/
def testedPairs : List (Nat × Nat × Nat × Nat) := pairTable.take 64

/-- The bytes of the boot ROM (R273). -/
opaque romByte : Nat → Byte

/-- The first byte, in the dictionary store, of the record that holds an entry (12_service_matrix.md R308:
the service firmware places the records). -/
opaque recordFirst : Nat → Nat

/-- The dictionary entry whose record covers a byte of the dictionary store; `none` where no record lies. -/
opaque recordAt : Nat → Option Nat

/-- The first byte, in data RAM, of the replay index (11_sequencer.md R271), and the entry of the descriptor with a given index in an
image with a given CRC: neither is laid down. -/
opaque replayIndexAt : Nat
opaque replayEntry : Nat → Nat → BitVec 32

end Sys2Proof.Config
end

