-- ==== Sys2Proof/Machine/State.lean ====
section
/-! DEFINITION. The state of one Doluo instance, as plain data, and its value while `COLD_RST_N` is low
(INVENTORY.md, '## State', lists every piece with its rule). -/

namespace Sys2Proof.Machine

/-- A table from numbers to values: ascending keys, no entry equal to what an unlisted key reads as. -/
abbrev Tab (α : Type) := List (Nat × α)

/-- The byte memories. Unlisted bytes read 0 (log entry 3). -/
structure Store where
  /-- data arrays: byte `262144 p + 256 e + i` of physical bank `p`, entry `e` (04_banks.md R87) -/
  data : List Host.Cell := []
  /-- sideband arrays: byte `32768 p + 32 e + i` -/
  side : List Host.Cell := []
  /-- error mark of each stored 64-bit word: bits 1 and 0 check bits stored inverted, bit 2 one bit changed since, bit 3 two
  (R106, R107, R109); data word
  `32768 p + 32 e + w`, sideband word `2097152 + 4096 p + 4 e + w` -/
  marks : List Host.Cell := []
  /-- program RAM, 256 KiB (11_sequencer.md R273) -/
  prog : List Host.Cell := []
  /-- data RAM, 128 KiB -/
  dram : List Host.Cell := []
  /-- dictionary store, 64 KiB (R308) -/
  dict : List Host.Cell := []
  deriving DecidableEq, Repr

/-- Lifecycle states (15_states_power.md R352). -/
inductive LC where
  | off | boot | configured | armed | running | holding | draining | safe
  deriving DecidableEq, Repr

/-- Tile states (03_tile_registers.md R67, R69). -/
inductive TState where
  | empty | loading | part | valid | overflowed | committed | damaged
  deriving DecidableEq, Repr

/-- A tile status word (R67). `gen` is the model's own: its half counts the configurations of the slot, by which an operation
knows that its recorded one is no longer in force; it is odd once the tile as configured has been damaged (R73). -/
structure Tile where
  rowValid  : BitVec 64 := 0
  epoch     : Nat := 0
  startRow  : Nat := 0
  inUse     : Bool := false
  state     : TState := .empty
  deadRead  : Bool := false
  zread     : Bool := false
  abandoned : Bool := false
  pinned    : Bool := false
  scrubPend : Bool := false
  unrecomp  : Bool := false
  writers   : Nat := 0
  scaleSlot : Nat := 0
  shape     : Nat := 0
  maceDisc  : Nat := 0
  lastStamp : Stamp := 0
  gen       : Nat := 0
  deriving DecidableEq, Repr

/-- The tick unit, its holds and the sync follower (02_tick.md). -/
structure TickUnit where
  wall      : Nat := 0
  tick      : Nat := 0
  lcyc      : Nat := 0
  /-- unheld cycles of this tick so far, guard-extension cycles included (R36) -/
  unheld    : Nat := 0
  /-- unheld cycles since the first tick of the run began: the clock of scheduled beats in the pipeline -/
  beat      : Nat := 0
  /-- guard-extension cycles given to this tick, and cycles an early pulse takes from its end (R37) -/
  ext       : Nat := 0
  cut       : Nat := 0
  /-- ticks since `RUN` (R251) -/
  since     : Nat := 0
  runAt     : Option Nat := none
  startDriven : Bool := false
  /-- `TICK_OUT` is high while the wall cycle is below this (R17) -/
  tickOutEnd : Nat := 0
  holdIn    : Bool := false
  /-- wall cycles in which the counter freezes and resumes, for the edges of `HOLD_IN` taken so far (R18) -/
  freezeAt  : List Nat := []
  resumeAt  : List Nat := []
  frozen    : Bool := false
  heldTick  : Nat := 0
  heldNow   : Nat := 0
  /-- the wall cycle in which `HOLD_OUT` rose -/
  holdOut   : Option Nat := none
  netFault  : Bool := false
  /-- `HOLD_IN` has been high at some time since `HOLD_OUT` rose (R45) -/
  holdSeen  : Bool := false
  /-- a pulse was taken for the coming boundary; for the last boundary (R36) -/
  earlySeen : Bool := false
  lateSeen  : Bool := false
  lateOpen  : Bool := false
  missed    : Bool := false
  missRun   : Nat := 0
  freeRun   : Bool := false
  /-- the last cycle of the tick has run: its boundary is due -/
  ended     : Bool := false
  /-- `HOLD_IN` was high in logical cycle `TICK_LEN` - 1, and has not fallen since (R46) -/
  endHold   : Bool := false
  /-- the `GUARD` and `FAULT_SLACK` events of this tick already taken -/
  guardDone : Bool := false
  slackDone : Bool := false
  deriving DecidableEq, Repr

/-- The schedule thread and its issue queue (11_sequencer.md R269, R270). Indices are positions in the list of
the current tick program; `queue` holds the wall cycles at which the descriptors from `next` on entered. -/
structure Sched where
  on       : Bool := false
  next     : Nat := 0
  checked  : Nat := 0
  lastIssue : Option Nat := none
  /-- descriptors behind `next` that have issued already, each with its logical cycle: an open one before them waits for its release
  (10_descriptors.md R250) -/
  early    : List (Nat × Nat) := []
  ended    : Bool := false
  queue    : List Nat := []
  waiting  : List (Nat × Desc) := []
  lagging  : List Nat := []
  suppressed : List Nat := []
  leadMin  : Option Nat := none
  /-- quarter positions granted in open slots, for each port, in this tick (R136) -/
  grants   : Tab Nat := []
  deriving DecidableEq, Repr

/-- What an active operation is: of the tick program, a preload of a `TMERGE` (R184), a replay (R220), the row reads or writes of a
dictionary save or restore (R366, R367), or a transfer of the save engine's image (R366, step 4). -/
inductive Role where
  | main | preload | replay | save | image
  deriving DecidableEq, Repr

/-- The numeric sums of one attempt of a converting write (R216, R228, R233). -/
structure Sums where
  overflow : Bool := false
  /-- floor of the base 2 logarithm of the largest finite magnitude; none: no nonzero value -/
  amax     : Option Int := none
  flushed  : Nat := 0
  nonzero  : Nat := 0
  deriving DecidableEq, Repr

/-- One active operation, with the configuration it recorded at issue (R73). -/
structure Op where
  id     : Nat
  d      : Desc
  idx    : Nat := 0
  role   : Role := .main
  opn    : Bool := false
  tick   : Nat := 0
  /-- logical cycle of access 0 of a scheduled operation -/
  base   : Nat := 0
  /-- accesses made: the next transfer (R116, R139) -/
  n      : Nat := 0
  /-- accesses the operation makes in all -/
  total  : Nat := 0
  /-- destination slots, each with its configuration count at issue -/
  dests  : List (Nat × Nat) := []
  srcShape : Nat := 0
  dstShape : Nat := 0
  /-- configuration count of the source slot at issue -/
  srcGen : Nat := 0
  scale  : Nat := 0
  /-- Anise slots it uses, recorded at release (09_numerics.md R229) -/
  scales : List Nat := []
  sigma  : Int := 0
  attempt : Nat := 0
  sums   : Sums := {}
  /-- rows of the destination that were valid before issue (R184) -/
  oldValid : BitVec 64 := 0
  /-- the overflow is pending (R71): found at this logical cycle -/
  pendingOvf : Option Nat := none
  /-- every beat is taken; only writes in flight or a report remain -/
  taken  : Bool := false
  /-- rows poisoned so far by beats of the row in hand -/
  poison : List Nat := []
  lateCounted : Bool := false
  /-- the wall cycle from which it requests (R138) -/
  releasedAt : Nat := 0
  /-- a row transfer counted in `WRITERS` now (R158, R160) -/
  counted : Bool := true
  /-- tiles it pins while its overflow is pending (R71, R219) -/
  srcs   : List Nat := []
  /-- rows whose beat was discarded (R132) -/
  skipped : List Nat := []
  /-- rows, or quarters of the row in hand, read so far, with their sidebands: the transposing buffer (R104) and the
  quarters of a split conversion on the loop path -/
  strip  : List (List Byte × List Byte) := []
  deriving DecidableEq, Repr

/-- Why a row write is in the write path. -/
inductive WKind where
  | row | sv
  deriving DecidableEq, Repr

/-- A row, or quarters of one, on its way to the banks (05_ports.md R123). `due` counts beats of the tick unit
for a scheduled write, wall cycles for an open one. -/
structure RowWrite where
  wid    : Nat
  kind   : WKind
  op     : Nat
  slot   : Nat
  row    : Nat
  gen    : Nat
  quarters : List Nat
  payload : List Byte
  sb     : List Byte
  invQ   : List Nat := []
  invSb  : Bool := false
  due    : Nat
  wallDue : Bool := false
  /-- the last beat of its row -/
  completes : Bool := true
  /-- the operation's last row -/
  last   : Bool := false
  /-- leaves folded into it, for the test of R200; none: no such test -/
  leaves : Option Nat := none
  /-- its conversion overflowed: a `TRETURN` row (09_numerics.md R225) -/
  ovf    : Bool := false
  stamp  : Stamp := 0
  deriving DecidableEq, Repr

/-- A beat on its way to a read-side endpoint: scheduled, or in the return buffer from `due` on (R123, R127). -/
structure OutBeat where
  endpt : Nat
  port  : Nat
  op    : Nat
  beat  : Beat
  due   : Nat
  /-- command beat of this transfer number (R154) -/
  cmd   : Option Nat := none
  /-- gather sequence number; last index (R176) -/
  seq   : Option Nat := none
  slot  : Nat := 0
  /-- an open-slot beat: it waits in the return buffer for `READY` -/
  opn   : Bool := false
  /-- `READY` in the arrival cycle of a scheduled beat (R132) -/
  ready : Bool := true
  deriving DecidableEq, Repr

/-- Sumac's state for one requester on one port (06_sumac.md R139). -/
structure Requester where
  queue   : List Nat := []
  aging   : Nat := 0
  hog     : Nat := 0
  penaltyEnd : Nat := 0
  cut     : Bool := false
  missed  : Bool := false
  deriving DecidableEq, Repr

/-- A row transfer (07_rows_in_out.md R154 to R167). -/
structure Xfer where
  tn      : Nat
  op      : Nat
  store   : Bool
  /-- its place in the command order; none: suspended, or aborted and acknowledged -/
  order   : Option Nat := none
  /-- first row of its last load, store or resumption command -/
  cfirst  : Nat
  /-- the highest row reported stored -/
  stored  : Option Nat := none
  /-- the command beat has been delivered -/
  delivered : Bool := false
  suspended : Option Nat := none
  /-- a faulted row that has not committed (R42) -/
  faulted : Option Nat := none
  /-- the row was still faulted at the last cycle of `FAULT_SLACK` -/
  slackHold : Bool := false
  /-- abort sent: trigger 0 timeout, 1 cancel, 2 save or restore, 3 access fault -/
  aborting : Option Nat := none
  abortAt : Nat := 0
  /-- its abort command beat has entered the return buffer -/
  abortSent : Bool := false
  /-- the row a fault beat gave while aborting (R169) -/
  faultK  : Option Nat := none
  retries : Nat := 0
  lastBeat : Nat := 0
  /-- ended unacknowledged: data beats are discarded until the acknowledgement (R163) -/
  orphan  : Bool := false
  deriving DecidableEq, Repr

/-- An entry of the gather queue (R174). -/
structure GEntry where
  seq   : Nat
  idx   : Nat
  /-- the index named no live row at its take into the queue (R203) -/
  fault : Bool := false
  /-- its row has been read: the beat waits for its turn -/
  beat  : Option Beat := none
  sent  : Bool := false
  deriving DecidableEq, Repr

/-- A destination row of a `TMERGE` or `TRETURN` (08_route_merge.md R182 to R186, R198). -/
structure MRow where
  slot    : Nat
  row     : Nat
  /-- leaves present: shard or choice, with the FP32 codes -/
  leaves  : Tab (List Nat) := []
  /-- a `TRETURN` leaf as received, for the one-leaf row -/
  single  : Option Beat := none
  preload : Option (List Nat) := none
  needsPre : Bool := false
  poison  : Bool := false
  /-- a `TMERGE` row's result; for a `TRETURN` row: it is in the write path -/
  result  : Option (List Nat) := none
  /-- ready for its root write from this wall cycle; none: written or on the fast path -/
  ready   : Option Nat := none
  done    : Bool := false
  tag     : Nat := 0
  epoch   : Nat := 0
  /-- an overwrite row without a leaf (R183) -/
  empty   : Bool := false
  /-- row quarters and sideband to be stored with inverted check bits (05_ports.md R132) -/
  invQ    : List Nat := []
  invSb   : Bool := false
  /-- the sums of this attempt hold its conversion: a row that is written again adds nothing to them (09_numerics.md R233) -/
  summed  : Bool := false
  /-- wall cycles in which its additions still to come start, each of which frees a buffer row then (R179) -/
  adds    : List Nat := []
  deriving DecidableEq, Repr

/-- A released SE-M operation, from its release on (R177). -/
structure SemOp where
  op      : Nat
  /-- it is one of the eight that may be candidates -/
  live    : Bool := false
  rows    : List MRow := []
  closed  : List (Nat × Nat) := []
  /-- `TROUTE`: previous key, claimed rows, drops of each expert -/
  prevKey : Option (Nat × Nat × Nat) := none
  claimed : List (Nat × Nat) := []
  drops   : Tab Nat := []
  closedAll : Bool := false
  /-- `TRETURN`: destination slot, its σ at issue, its sums, and whether a row converted (R217, R228) -/
  uses    : List (Nat × Int × Sums × Bool) := []
  deriving DecidableEq, Repr

/-- An access of the service matrix that waits (12_service_matrix.md R297). -/
structure MxWait where
  burst : Burst
  since : Nat
  /-- 0 decode error, 1 arbitration, 2 lock, 3 zero region; 4 an access of a service window that its target has taken; 5 not yet accepted
  from its master (R289); 6 a write burst that its target has taken and whose last beats have not come -/
  why   : Nat
  /-- arrival number -/
  no    : Nat := 0
  /-- transfers still to make of a window access: slot, row, quarter; then the write (R300) -/
  jobs  : List (Nat × Nat × Nat) := []
  writing : Bool := false
  gen   : Nat := 0
  /-- the tick in which it was accepted (06_sumac.md R142) -/
  tick  : Nat := 0
  gathered : List (Nat × List Byte) := []
  /-- the read meets an uncorrectable error (R296) -/
  ecc     : Bool := false
  /-- a transfer has been granted: the target has started the access -/
  begun   : Bool := false
  /-- its master is gone: the matrix completes it, with every strobe off (R307) -/
  behalf  : Bool := false
  /-- the write transfer in flight to the banks -/
  wid     : Option Nat := none
  /-- the wall cycle from which its next transfer requests (R302) -/
  next    : Nat := 0
  /-- an access for the ring request at the head of the bridge's queue -/
  ring    : Bool := false
  /-- an access of the save engine, which leaves its place to the engine (15_states_power.md R366) -/
  engine  : Bool := false
  /-- its master had a path when it was accepted (R312) -/
  en      : Bool := true
  /-- wall cycle + 1 of its grant (R311) -/
  granted : Nat := 0
  deriving DecidableEq, Repr

structure Matrix where
  /-- arrivals so far -/
  no     : Nat := 0
  /-- locked targets: target, owner, wall cycle (R305) -/
  locks  : List (Nat × Nat × Nat) := []
  owners : Tab Nat := []
  waits  : List MxWait := []
  /-- last user of each target since cold reset (R295): master + 1 -/
  park   : Tab Nat := []
  /-- fill of each commit unit: master and next byte (R308) -/
  fills  : List (Nat × Nat × Nat) := []
  uncommitted : List Nat := []
  /-- last response of each master: 0 okay, 1 error, 2 abort; with its bytes -/
  resp   : List (Nat × Nat × List Byte) := []
  remapWait : Bool := false
  /-- the wall cycle in which the write that set `REMAP` was accepted (11_sequencer.md R275) -/
  remapAt : Nat := 0
  /-- locks that their owner's write has released in this cycle: target, owner (R311) -/
  freed : List (Nat × Nat) := []
  wrapperAbort : Bool := false
  deriving DecidableEq, Repr

/-- The open segmented transfer (13_evien.md R319). -/
structure Seg where
  node  : Nat
  index : Nat
  sub   : Nat
  read  : Bool
  size  : Nat
  toggle : Bool := false
  /-- a write's bytes so far; a read's snapshot, or the unit in hand of a live read -/
  data  : List Byte := []
  /-- bytes of a write already in their memory, or of a read already sent -/
  pos   : Nat := 0
  /-- first byte, in its target, of the memory that the entry writes or reads live -/
  base  : Nat := 0
  /-- a slot of this checkpoint write has become cold -/
  bad   : Bool := false
  deriving DecidableEq, Repr

structure Ring where
  seg     : Option Seg := none
  emcy    : List (List Byte) := []
  answers : List (List Byte) := []
  forward : List (List Byte) := []
  beatDue : Bool := false
  /-- the frame sent last on `RING_OUT` -/
  sent    : List Byte := []
  fenced  : Bool := false
  /-- requests that wait in the bridge, the oldest first (13_evien.md R318); `now`: the next request is the one taken from its head -/
  queue   : List Instr := []
  now     : Bool := false
  hbCount : Nat := 0
  hbWall  : Nat := 0
  deriving DecidableEq, Repr

structure Power where
  portsIdle  : Nat := 0
  groupsIdle : Nat := 0
  /-- wakes: unit (ports 0 to 5, groups 8 to 15) and the cycle from which it is Active -/
  wakes   : List (Nat × Nat) := []
  /-- Idle directives: unit and the cycle from which it is gated (R248) -/
  sleeps  : List (Nat × Nat) := []
  gated   : Bool := false
  /-- dictionary changes waiting for the boundary (R343) -/
  nextPorts  : Option Nat := none
  nextGroups : Option Nat := none
  req     : Nat := 0
  ack     : Bool := false
  /-- a change waits for `PWR_ACK` since this wall cycle -/
  waitAck : Option Nat := none
  timedOut : Bool := false
  /-- wake: the wall cycle in which the wait of R363 ends -/
  wakeEnd : Option Nat := none
  fromOff : Bool := false
  /-- boot step 2 has left the spares to the next wake (11_sequencer.md R278) -/
  spareDue : Bool := false
  deriving DecidableEq, Repr

/-- The tile that a restore has in hand: its slot, the configuration it gave it, its header, its rows still to write (R367). -/
structure SrTile where
  slot : Nat
  gen  : Nat
  head : List Byte
  rows : List Nat
  deriving DecidableEq, Repr

/-- The save and restore engine (15_states_power.md R364 to R368). -/
structure SaveEngine where
  /-- 0 idle, 1 waiting for a boundary, 2 running -/
  phase  : Nat := 0
  /-- accepted in the last cycle of a tick: the coming boundary is not yet its own (14_dictionary.md R351) -/
  late   : Bool := false
  /-- a dictionary command, whose end replaces the result in `CMD_LAST` (R350) -/
  cmd    : Bool := false
  isSave : Bool := true
  ctx    : Nat := 0
  base   : Nat := 0
  limit  : Nat := 0
  anise  : Bool := false
  /-- the operation of a `TSAVE` or `TREST`; none for the dictionary commands -/
  op     : Option Nat := none
  stamp  : Stamp := 0
  /-- of a save: the tile status table is still to be read (R366, step 1) -/
  tables : Bool := false
  todo   : List (Nat × Nat) := []
  heads  : List (Nat × List Byte) := []
  rows   : List (Nat × Nat × List Byte) := []
  /-- of a save: its image, once all rows are read; of a restore: the bytes that its loads have brought -/
  image  : List Byte := []
  /-- commands for transfers of the image so far (R366, step 4), and the number of transfer 0 -/
  parts  : Nat := 0
  tn0    : Option Nat := none
  /-- a restore: place in the image (0: its header is still to be checked), tile headers still to come, place of the last tile in its
  context, the tile in hand, and whether the Anise and Clove slots are done -/
  pos    : Nat := 0
  left   : Nat := 0
  prev   : Option Nat := none
  hand   : Option SrTile := none
  scaled : Bool := false
  deriving DecidableEq, Repr

/-- A failure window (16_faults.md R375). -/
structure Window where
  count : Nat := 0
  start : Nat := 0
  last  : Option Nat := none
  failed : Bool := false
  deriving DecidableEq, Repr

/-- A trace record whose write waits at the matrix: since when, and whether M4 has no path (12_service_matrix.md R312). -/
structure TraceWait where
  since : Nat
  off   : Bool
  record : List Byte
  deriving DecidableEq, Repr

structure Faults where
  out   : Nat := 0
  /-- wall cycle + 1 of the last event of each class (01_boundary.md R19), and of the last one that set a bit which a write can clear, or
  retired a bank (14_dictionary.md R351): 16 lost sync, `128 + s` dead read of slot `s`, `256 + 16 p + i` hogging, `512 + t` broken lock,
  `600 + p` retirement by the automatic rule, 700 the cold-scale flag -/
  outAt : Tab Nat := []
  /-- entries of this cycle, in the order of their events (14_dictionary.md R341) -/
  today : List (List Byte) := []
  /-- emergency frames queued as the cycle began -/
  emcyMark : Nat := 0
  /-- trace places written in this cycle, with what they held before, the latest first (16_faults.md R392) -/
  trOld : List (Nat × List Byte) := []
  /-- records of this cycle that a full buffer has lost (R392) -/
  trDrop : List (List Byte) := []
  /-- records that wait for the trace buffer's target, the oldest first (12_service_matrix.md R305, R312) -/
  trWait : List TraceWait := []
  ehSeq : Nat := 0
  trSeq : Nat := 0
  /-- banks 0 to 33, ports 64 to 69, merge buffer 128 -/
  windows : Tab Window := []
  /-- retired banks whose boundary step is still to come (R110, R111) -/
  retiring : List Nat := []
  failing  : List Nat := []
  mergeFailing : Bool := false
  /-- units that have failed their comparison since cold reset (R380): the tick unit, the conversion stage with its write port; the stage
  has been used again -/
  badTick : Bool := false
  badConv : Option Nat := none
  convUsed : Bool := false
  /-- first-in-tick marks already taken: 0 to 5 deadline miss, 16 to 111 hog, 128 not ready, 129 give-up -/
  firsts : List Nat := []
  deriving DecidableEq, Repr

/-- Pins and boot. -/
structure Pins where
  coldLow : Bool := true
  warmLow : Bool := false
  ringLow : Bool := false
  seqHeld : Bool := true
  /-- 0 not booting, 1 waiting at step 3, 2 between step 4 and the start of the service firmware -/
  bootPhase : Nat := 0
  romFailed : Bool := false
  remap : Bool := false
  remapDone : Bool := false
  schedRun : Bool := false
  bootStep : Nat := 0
  fwStarted : Bool := false
  /-- a pending `STOP`: 1 or 2; 3 or 4 when accepted in the last cycle of a tick (R351) -/
  stopPend : Nat := 0
  drainN : Nat := 0
  drainForced : Bool := false
  bist : Nat := 0
  validating : Bool := false
  invalidate : Bool := false
  /-- the boot ROM has started the bridge since cold reset: `RING_OUT` is no longer in bypass (01_boundary.md R15; 11_sequencer.md R278) -/
  bridgeOn : Bool := false
  deriving DecidableEq, Repr

/-- The pins of the IEEE 1500 serial port (01_boundary.md R15, R22). -/
structure Wrapper where
  wrck : Bool := false
  wrstn : Bool := true
  selectWIR : Bool := false
  captureWR : Bool := false
  shiftWR : Bool := false
  updateWR : Bool := false
  wsi : Bool := false
  wso : Bool := false
  deriving DecidableEq, Repr

/-- An error found by a checked read (04_banks.md R107): bank, entry, word, sideband array, two bits. -/
structure EccErr where
  bank : Nat
  entry : Nat
  word : Nat
  sb : Bool
  double : Bool
  /-- the word's error mark -/
  mark : Nat
  /-- the row, `64 slot + row`, and the place of the word in it, in the order of R107 -/
  row : Nat := 0
  place : Nat := 0
  deriving DecidableEq, Repr

/-- One use of an Anise slot (09_numerics.md R228): the destination slot, its shape, σ and sums of the attempt, whether any attempt
overflowed, and `CLOVE_ALARM_MASK` as it was. -/
structure ScaleUse where
  dest   : Nat
  shape  : Nat
  sigma  : Int
  sums   : Sums
  ovf    : Bool
  mask   : Bool
  deriving DecidableEq, Repr

/-- The uses of a slot in this cycle, by destination, with the slot and its Clove counter as they stood before them, and the alarms
entered for them so far. -/
structure ScaleNow where
  slot   : Nat
  anise  : List Byte
  clove  : List Byte
  uses   : List ScaleUse := []
  alarms : Nat := 0
  deriving DecidableEq, Repr

/-- Everything but the byte memories and the command queue. -/
structure Blk where
  lc     : LC := .off
  pins   : Pins := {}
  /-- scalar dictionary entries, key `256 index + sub`; unlisted ones read their default -/
  regs   : Tab Nat := []
  /-- DOMAIN entries that are records of fixed length; unlisted ones read zeros -/
  recs   : Tab (List Byte) := []
  /-- values of the RW-CFG entries that the hardware uses: as they stood at the last `ARM` (R333) -/
  force  : Tab Nat := []
  /-- Anise, 4,096 slots of 32 bytes (09_numerics.md R226); Clove, 4,096 counters of 16 bytes (R233) -/
  anise  : Tab (List Byte) := []
  clove  : Tab (List Byte) := []
  /-- checkpoint halves restored without a cold slot since a slot last became cold: 1 low, 2 high (R232) -/
  ckpt   : Nat := 0
  /-- trace buffer, 8,192 records of 32 bytes (16_faults.md R388) -/
  trace  : Tab (List Byte) := []
  tiles  : Tab Tile := []
  /-- status words changed in this cycle, as the accesses of this cycle still see them (03_tile_registers.md R73) -/
  seen   : Tab Tile := []
  /-- errors that scheduled reads of this cycle have counted (04_banks.md R92) -/
  eccSeen : List EccErr := []
  /-- slots that were configured in this cycle, and those of which a cancel of this cycle has raised the epoch (03_tile_registers.md R82) -/
  cfgNow : List Nat := []
  raised : List Nat := []
  /-- Anise slots updated in this cycle (09_numerics.md R237) -/
  aniseNow : List ScaleNow := []
  tick   : TickUnit := {}
  sched  : Sched := {}
  ops    : List Op := []
  writes : List RowWrite := []
  outs   : List OutBeat := []
  /-- the last beat driven on each read-side bus: endpoint code and beat -/
  buses  : Tab Beat := []
  reqs   : Tab Requester := []
  xfers  : List Xfer := []
  gather : List GEntry := []
  gStaged : List (Nat × Nat) := []
  gNext  : Nat := 0
  sems   : List SemOp := []
  replayQ : List Nat := []
  replayNow : Option Nat := none
  replayNext : Nat := 0
  /-- `TCFG`s that wait for the scrub of their slot (R75) -/
  heldCfg : List Desc := []
  /-- rows of a slot that its scrub has zeroed so far -/
  scrubRow : Tab Nat := []
  /-- bytes that the last writes of `IMAGE_LO` and `IMAGE_HI` wrote (R258) -/
  imgLo  : Nat := 0
  imgHi  : Nat := 0
  /-- claims that grants have fixed: bank cycle and number (04_banks.md R94; 05_ports.md R128): below 16 a group, `16 + 4p + q` position `q`
  of port `p`, from 64 on an endpoint bus; the last round of each port: wall cycle + 1 -/
  fixed  : List (Nat × Nat) := []
  roundAt : Tab Nat := []
  /-- a contribution is refused now: operation (R187) -/
  refused : Option Nat := none
  withdrawn : List Nat := []
  /-- the adder of the merge unit: the next wall cycle in which an addition can start, and the first with none outstanding (R179) -/
  adderNext : Nat := 0
  adderEnd : Nat := 0
  /-- wall cycle + 1 of the last delivery on the endpoint buses -/
  droveAt : Nat := 0
  /-- writes of RW entries that are not in force yet: entry's key, first cycle with the new value, value until then (06_sumac.md R146;
  14_dictionary.md R333) -/
  rwWait : List (Nat × Nat × Nat) := []
  epOff  : Nat := 0
  mx     : Matrix := {}
  wrapper : Wrapper := {}
  ring   : Ring := {}
  pwr    : Power := {}
  sr     : SaveEngine := {}
  flt    : Faults := {}
  /-- counters of the model's own: operations, row writes, transfers (`TN`, log entry 6), free values -/
  opNo   : Nat := 1
  wNo    : Nat := 0
  tnNo   : Nat := 0
  fresh  : Nat := 0
  deriving DecidableEq, Repr

/-- The state: memories, everything else, and the commands that wait, first in first out. -/
structure State where
  mem : Store := {}
  blk : Blk := {}
  pending : List Instr := []
  deriving DecidableEq, Repr

/-- No command of this block stops the machine: Doluo reports its faults in its own state. -/
inductive Fault where
  /-- the type's one name; no meaning raises it (safe) -/
  | none
  deriving DecidableEq, Repr

/-- Refusals. -/
inductive Refusal where
  /-- a command that has no meaning yet: no arm of exec raises it, since every command has one (safe) -/
  | notModelled (mnemonic : String)
  deriving DecidableEq, Repr

/-- `COLD_RST_N` is low, every register at its Reset or Default column, the queue empty (R14, R334, R356). -/
def State.reset : State := {}

/-- Change everything but the memories. -/
def State.upd (s : State) (f : Store → Blk → Blk) : State := { s with blk := f s.mem s.blk }

end Sys2Proof.Machine
end

