-- ==== Sys2Proof/Machine/Mem.lean ====
section
/-! DEFINITION. Tables and byte memories in one canonical form, the packing of little-endian values (00_scope.md R5)
and the two CRCs (10_descriptors.md R255, 13_evien.md R314). -/

namespace Sys2Proof.Machine

/-- What key `k` holds; `d` gives what an unlisted key reads as. -/
def Tab.get {α : Type} (d : Nat → α) (m : Tab α) (k : Nat) : α :=
  match m.find? (fun c => c.1 == k) with
  | some c => c.2
  | none => d k

/-- The listed entries of `vs` at keys from `k` on: those that differ from what an unlisted key reads as. -/
def Tab.run {α : Type} [DecidableEq α] (d : Nat → α) (k : Nat) : List α → Tab α
  | [] => []
  | v :: vs => if v = d k then Tab.run d (k + 1) vs else (k, v) :: Tab.run d (k + 1) vs

/-- Store `vs` at the keys from `k` on. -/
def Tab.write {α : Type} [DecidableEq α] (d : Nat → α) (m : Tab α) (k : Nat) (vs : List α) : Tab α :=
  m.filter (fun c => decide (c.1 < k)) ++ Tab.run d k vs ++ m.filter (fun c => decide (k + vs.length ≤ c.1))

/-- Store one value. -/
def Tab.set {α : Type} [DecidableEq α] (d : Nat → α) (m : Tab α) (k : Nat) (v : α) : Tab α :=
  Tab.write d m k [v]

/-- Put `x` before the first entry whose key is not below its own. -/
def insertBy {α : Type} (f : α → Nat) (x : α) : List α → List α
  | [] => [x]
  | y :: ys => if f x ≤ f y then x :: y :: ys else y :: insertBy f x ys

/-- Sort a list by a key, keeping the order of equal keys. -/
def sortBy {α : Type} (f : α → Nat) (l : List α) : List α := l.foldr (insertBy f) []

/-- The canonical form: keys strictly rising, no entry equal to what its unlisted key reads as. -/
abbrev Tab.wf {α : Type} (d : Nat → α) (m : Tab α) : Prop :=
  m.Pairwise (fun a b => a.1 < b.1) ∧ ∀ c ∈ m, c.2 ≠ d c.1

/-- What an unlisted byte reads as (log entry 3). -/
def zeroByte (_ : Nat) : Byte := 0

/-- `n` bytes from address `a`. -/
def Mem.read (m : List Host.Cell) (a n : Nat) : List Byte :=
  (List.range n).map (fun i => Tab.get zeroByte m (a + i))

/-- Store bytes from address `a` on. -/
def Mem.write (m : List Host.Cell) (a : Nat) (bs : List Byte) : List Host.Cell :=
  Tab.write zeroByte m a bs

/-- Store the strobed bytes from address `a` on; the others stay (12_service_matrix.md R293). -/
def Mem.strobe (m : List Host.Cell) (a : Nat) (bs : List (Option Byte)) : List Host.Cell :=
  Mem.write m a ((List.range bs.length).map (fun i => ((bs[i]?).getD none).getD (Tab.get zeroByte m (a + i))))

/-- Little-endian value of bytes. -/
def leVal : List Byte → Nat
  | [] => 0
  | b :: bs => b.toNat + 256 * leVal bs

/-- The `n` low bytes of a value, lowest first. -/
def leBytes : Nat → Nat → List Byte
  | 0, _ => []
  | n + 1, v => BitVec.ofNat 8 v :: leBytes n (v / 256)

/-- Bits `hi` to `lo` of a value. -/
def bits (v hi lo : Nat) : Nat := v / 2 ^ lo % 2 ^ (hi + 1 - lo)

/-- Bit `i`. -/
def bit (v i : Nat) : Bool := Nat.testBit v i

/-- Set or clear bit `i`. -/
def setBit (v i : Nat) (b : Bool) : Nat := v - (if bit v i then 2 ^ i else 0) + (if b then 2 ^ i else 0)

/-- `n` bytes from offset `a` of a byte list, zero beyond its end. -/
def slice (bs : List Byte) (a n : Nat) : List Byte :=
  let t := (bs.drop a).take n
  t ++ List.replicate (n - t.length) 0

/-- The little-endian field of `n` bytes at offset `a`. -/
def fieldAt (bs : List Byte) (a n : Nat) : Nat := leVal (slice bs a n)

/-- Byte `i`, zero beyond the end. -/
def byteAt (bs : List Byte) (i : Nat) : Byte := (bs[i]?).getD 0

/-- Replace bytes from offset `a` on. -/
def putBytes (bs : List Byte) (a : Nat) (v : List Byte) : List Byte :=
  slice bs 0 a ++ v ++ bs.drop (a + v.length)

/-- A list padded with zeros, or cut, to `n` bytes. -/
def padTo (bs : List Byte) (n : Nat) : List Byte := slice bs 0 n

/-- A signed value of `n` bits from its unsigned reading, and back. -/
def toSigned (n v : Nat) : Int := if v < 2 ^ (n - 1) then (v : Int) else (v : Int) - (2 ^ n : Nat)
def ofSigned (n : Nat) (v : Int) : Nat := (v % ((2 ^ n : Nat) : Int)).toNat

def clampInt (v lo hi : Int) : Int := if v < lo then lo else if hi < v then hi else v

/-- One byte of the reflected CRC-32 of R255. -/
def crc32Byte (c : Nat) (b : Byte) : Nat :=
  (List.range 8).foldl (fun c _ => if c % 2 = 1 then Nat.xor (c / 2) 0xEDB88320 else c / 2) (Nat.xor c b.toNat)

/-- CRC-32 of IEEE 802.3 (R255). -/
def crc32 (bs : List Byte) : Nat := Nat.xor (bs.foldl crc32Byte 0xFFFFFFFF) 0xFFFFFFFF

/-- One byte of the CRC-16 of R314. -/
def crc16Byte (c : Nat) (b : Byte) : Nat :=
  (List.range 8).foldl (fun c _ => if 32768 ≤ c then Nat.xor (2 * c % 65536) 0x1021 else 2 * c) (Nat.xor c (256 * b.toNat))

/-- CRC-16 with polynomial 0x1021, initial value 0xFFFF (R314). -/
def crc16 (bs : List Byte) : Nat := bs.foldl crc16Byte 0xFFFF

/-- The difference of two counts modulo `m`. -/
def subMod (m x y : Nat) : Nat := if y ≤ x then x - y else m - (y - x)

/-- The number of ones of a byte list. -/
def popBytes (bs : List Byte) : Nat :=
  (bs.map (fun b => ((List.range 8).filter (fun i => b.getLsbD i)).length)).sum

/-- `ceil(log2 n)`, 0 for n below 2. -/
def ceilLog2 (n : Nat) : Nat := if n ≤ 1 then 0 else Nat.log2 (n - 1) + 1

/-- `ceil(a / b)`. -/
def ceilDiv (a b : Nat) : Nat := (a + b - 1) / b

end Sys2Proof.Machine
end

