-- ==== Sys2Proof/Machine/Entries.lean ====
section
/-! DEFINITION. The entries of the object dictionary: key, type, access, size, default and range, one row for
each row of the spec's dictionary tables (14_dictionary.md R329 to R336 and the tables it names). An entry's key is
`256 index + sub`. -/

namespace Sys2Proof.Machine

/-- Entry types (R330), as far as a transfer tells them apart. -/
inductive EType where
  | uns | int | string | domain
  deriving DecidableEq, Repr

/-- Access codes (R331). -/
inductive Access where
  | const | ro | wo | rw | cfg
  deriving DecidableEq, Repr

/-- The Range column (R330). -/
inductive Range where
  | any
  | span (lo hi : Nat)
  | spanOr (lo hi other : Nat)
  | mult (lo hi m : Nat)
  | mask (m : Nat)
  | maskNZ (m : Nat)
  | list (vs : List Nat)
  | bias | eccInject | reqSelect | prio | masterEn | cancel
  deriving DecidableEq, Repr

/-- One dictionary entry; `lo` and `hi` bound its size in bytes. -/
structure Entry where
  key : Nat
  typ : EType
  acc : Access
  lo  : Nat
  hi  : Nat
  rng : Range
  deriving DecidableEq, Repr

/-- The value lies in the range. One of `ECC_INJECT` with a bit of [31:24] set lies outside it (DESIGN CHOICE, log entry 77). -/
def Range.ok (r : Range) (v : Nat) : Bool :=
  match r with
  | .any => true
  | .span lo hi => decide (lo ≤ v) && decide (v ≤ hi)
  | .spanOr lo hi o => (decide (lo ≤ v) && decide (v ≤ hi)) || v == o
  | .mult lo hi m => decide (lo ≤ v) && decide (v ≤ hi) && v % m == 0
  | .mask m => Nat.land v m == v
  | .maskNZ m => Nat.land v m == v && v != 0
  | .list vs => vs.contains v
  | .bias => decide (v ≤ 2097151) || decide (4294967296 - 2097151 ≤ v)
  | .eccInject => bits v 31 24 == 0 && decide (bits v 5 0 ≤ 33) && (!bit v 21 || decide (bits v 20 16 ≤ 3))
  | .reqSelect => decide (v / 16 ≤ 5)
  | .prio => bits v 31 24 == 0 && (List.range 6).all (fun r => ((List.range 6).map (fun m => v / 16 ^ m % 16)).contains r)
  | .masterEn => v % 8 == 7 && decide (v < 64)
  | .cancel => Nat.land v 0xFF01FF == v && decide (bits v 8 0 ≤ 127) && decide (1 ≤ bits v 23 16)
      && decide (bits v 8 0 + bits v 23 16 ≤ 128)

/-! The keys of the entries, under the names the spec gives them. -/

abbrev K.TICK_LEN : Nat := 0x200001
abbrev K.GUARD : Nat := 0x200002
abbrev K.RECOMP_RESERVE : Nat := 0x200003
abbrev K.FAULT_SLACK : Nat := 0x200004
abbrev K.SYNC_MODE : Nat := 0x200005
abbrev K.SYNC_WINDOW : Nat := 0x200006
abbrev K.SYNC_MISS_LIMIT : Nat := 0x200007
abbrev K.STRETCH_LIMIT : Nat := 0x200008
abbrev K.HOLD_LOOKAHEAD : Nat := 0x200009
abbrev K.TICK_START : Nat := 0x20000A
abbrev K.TICK_NOW : Nat := 0x600001
abbrev K.SYNC_STATE : Nat := 0x600002
abbrev K.SYNC_OFFSET : Nat := 0x600003
abbrev K.SYNC_MISSES : Nat := 0x600004
abbrev K.SYNC_GLITCHES : Nat := 0x600005
abbrev K.SYNC_EXTRA : Nat := 0x600006
abbrev K.OFFSET_CLAMPS : Nat := 0x600007
abbrev K.HOLD_TICKS : Nat := 0x600008
abbrev K.HOLD_CYCLES : Nat := 0x600009
abbrev K.LAST_STRETCH : Nat := 0x60000A
abbrev K.HOLD_CAUSES : Nat := 0x60000B
abbrev K.LATE_HOLDS : Nat := 0x60000C
abbrev K.TICK_ABORTS : Nat := 0x60000D
abbrev K.SYNC_LOST_CLEAR : Nat := 0x60000E
abbrev K.SCRUB_ON_REL : Nat := 0x210001
abbrev K.DEAD_READ_REPORT : Nat := 0x210002
abbrev K.TILE_SELECT : Nat := 0x210003
abbrev K.TILE_STATUS : Nat := 0x610001
abbrev K.TILE_STATUS_SEL : Nat := 0x610002
abbrev K.SHAPE_FAULT_LAST : Nat := 0x610003
abbrev K.SHAPE_FAULTS : Nat := 0x610004
abbrev K.DEAD_READS : Nat := 0x610005
abbrev K.EMPTY_OPS : Nat := 0x610006
abbrev K.STALE_BEATS : Nat := 0x610007
abbrev K.SB_RSVD_NZ : Nat := 0x610008
abbrev K.DEAD_READ_CLEAR : Nat := 0x610009
abbrev K.BANK_MAP : Nat := 0x270010
abbrev K.SPARES_FREE : Nat := 0x270011
abbrev K.BANKS_RETIRED : Nat := 0x270012
abbrev K.HALF_MODE : Nat := 0x270013
abbrev K.HALF_GROUPS : Nat := 0x270014
abbrev K.ECC_INJECT : Nat := 0x270015
abbrev K.ECC_CE : Nat := 0x611001
abbrev K.ECC_UE : Nat := 0x611002
abbrev K.BANK_ECC : Nat := 0x611003
abbrev K.ECC_LAST : Nat := 0x611004
abbrev K.OPEN_GROUP_BUSY : Nat := 0x611005
abbrev K.EP_ELEMS_DE_A : Nat := 0x220001
abbrev K.EP_ELEMS_DE_W : Nat := 0x220002
abbrev K.EP_ELEMS_DE_O : Nat := 0x220003
abbrev K.EP_ELEMS_SE_M : Nat := 0x220004
abbrev K.EP_ELEMS_VU_X : Nat := 0x220005
abbrev K.EP_ELEMS_VU_Y : Nat := 0x220006
abbrev K.EP_ELEMS_VU_Z : Nat := 0x220007
abbrev K.EP_READY_TIMEOUT : Nat := 0x220008
abbrev K.EP_DISABLE : Nat := 0x220009
abbrev K.PORT_FENCED : Nat := 0x22000A
abbrev K.MISSED_BEATS : Nat := 0x620001
abbrev K.SCHED_NOT_READY : Nat := 0x620002
abbrev K.STAMP_MISMATCH : Nat := 0x620003
abbrev K.BAD_STAMPS : Nat := 0x620004
abbrev K.EP_PARITY : Nat := 0x620005
abbrev K.EP_PROTO : Nat := 0x620006
abbrev K.EP_TIMEOUTS : Nat := 0x620007
abbrev K.EP_FAULT_LAST : Nat := 0x620008
abbrev K.PORT_LOAD : Nat := 0x620009
abbrev K.AGE_MAX : Nat := 0x230001
abbrev K.AGE_STEP : Nat := 0x230002
abbrev K.HOG_LIMIT : Nat := 0x230003
abbrev K.HOG_PENALTY : Nat := 0x230004
abbrev K.REQ_SELECT : Nat := 0x230005
abbrev K.DEADLINE_MISSES : Nat := 0x630001
abbrev K.HOG_CUTOFFS : Nat := 0x630002
abbrev K.HOG_FLAGS : Nat := 0x630003
abbrev K.OPEN_QUEUE_FULL : Nat := 0x630004
abbrev K.HOG_FLAGS_CLEAR : Nat := 0x630005
abbrev K.REQ_STATE : Nat := 0x630006
abbrev K.SUMAC_MISS_LAST : Nat := 0x630007
abbrev K.LS_ROW_TIMEOUT : Nat := 0x22000B
abbrev K.LS_RETRIES : Nat := 0x22000C
abbrev K.ROW_FAULTS : Nat := 0x612001
abbrev K.ROW_RESUMES : Nat := 0x612002
abbrev K.LS_TIMEOUTS : Nat := 0x612003
abbrev K.LS_ABANDONED : Nat := 0x612004
abbrev K.LS_CANCELLED : Nat := 0x612005
abbrev K.ROW_FAULT_LAST : Nat := 0x612006
abbrev K.LSC : Nat := 0x250001
abbrev K.MAX_RETURN_AGE : Nat := 0x250002
abbrev K.MERGE_BUF_USED : Nat := 0x650001
abbrev K.MERGE_BUF_PEAK : Nat := 0x650002
abbrev K.MERGE_STALLS : Nat := 0x650003
abbrev K.MERGE_ORDER_FAULTS : Nat := 0x650004
abbrev K.EMPTY_MERGES : Nat := 0x650005
abbrev K.ROUTE_DROPS : Nat := 0x650006
abbrev K.ROUTE_COLLISIONS : Nat := 0x650007
abbrev K.ROUTE_ORDER_FAULTS : Nat := 0x650008
abbrev K.BUCKET_DROPS : Nat := 0x650009
abbrev K.GATHER_INDEX_FAULTS : Nat := 0x65000A
abbrev K.MACE_EPOCH_DISCARDS : Nat := 0x65000B
abbrev K.MACE_AGE_DISCARDS : Nat := 0x65000C
abbrev K.MACE_PURGED : Nat := 0x65000D
abbrev K.SEM_INDEX_FAULTS : Nat := 0x65000E
abbrev K.SEM_FAULT_LAST : Nat := 0x65000F
abbrev K.OVF_STEP : Nat := 0x240001
abbrev K.OVF_RETRIES : Nat := 0x240002
abbrev K.WARM_USES : Nat := 0x240003
abbrev K.ANISE_MARGIN_INIT : Nat := 0x240004
abbrev K.FLUSH_FRAC : Nat := 0x240005
abbrev K.FLUSH_RUN_LIMIT : Nat := 0x240006
abbrev K.CLOVE_ALARM_MASK : Nat := 0x240007
abbrev K.ANISE_SELECT : Nat := 0x240008
abbrev K.ANISE_SLOT : Nat := 0x240009
abbrev K.ANISE_CKPT_LO : Nat := 0x24000A
abbrev K.ANISE_CKPT_HI : Nat := 0x24000B
abbrev K.CLOVE_CKPT : Nat := 0x24000C
abbrev K.ANISE_COLD_CLEAR : Nat := 0x24000D
abbrev K.ANISE_INIT : Nat := 0x24000E
abbrev K.OVF_TILES : Nat := 0x640001
abbrev K.RECOMPUTES : Nat := 0x640002
abbrev K.RECOMP_OK : Nat := 0x640003
abbrev K.UNRECOMP_COMMITS : Nat := 0x640004
abbrev K.FORCED_COMMITS : Nat := 0x640005
abbrev K.RECOMP_USED : Nat := 0x640006
abbrev K.ROW_OVERFLOWS : Nat := 0x640007
abbrev K.NONFINITE_IN : Nat := 0x640008
abbrev K.MX_CLAMPS : Nat := 0x640009
abbrev K.ANISE_COLD_SLOTS : Nat := 0x64000A
abbrev K.ANISE_SHARED : Nat := 0x64000B
abbrev K.CLOVE_ALARMS : Nat := 0x64000C
abbrev K.CLOVE_SEL : Nat := 0x64000D
abbrev K.CLOVE_LAST : Nat := 0x64000E
abbrev K.OVF_LAST : Nat := 0x64000F
abbrev K.LOAD_IMAGE : Nat := 0x2F0001
abbrev K.IMAGE_LO : Nat := 0x2F1001
abbrev K.IMAGE_HI : Nat := 0x2F1002
abbrev K.IMAGE_STATE : Nat := 0x6A0001
abbrev K.LOAD_REPORT : Nat := 0x6A0002
abbrev K.IMAGE_CRC : Nat := 0x6A0003
abbrev K.IMAGE_BUILD : Nat := 0x6A0004
abbrev K.PROG_NOW : Nat := 0x6A0005
abbrev K.LOAD_COUNT : Nat := 0x6A0006
abbrev K.LOAD_REJECTS : Nat := 0x6A0007
abbrev K.VENDOR_ID : Nat := 0x101801
abbrev K.PRODUCT_CODE : Nat := 0x101802
abbrev K.HW_LEVEL : Nat := 0x101803
abbrev K.STEPPING : Nat := 0x101804
abbrev K.SVC_VERSION : Nat := 0x101805
abbrev K.RT_VERSION : Nat := 0x101806
abbrev K.ID_FLAGS : Nat := 0x101807
abbrev K.SERIAL : Nat := 0x101808
abbrev K.TP_COUNT : Nat := 0x1F1001
abbrev K.TP_TABLE : Nat := 0x1F1002
abbrev K.NEG_LEVEL : Nat := 0x1F2001
abbrev K.PLAT_MIN : Nat := 0x1F2002
abbrev K.PLAT_MAX : Nat := 0x1F2003
abbrev K.STRICT_PAIRS : Nat := 0x1F2004
abbrev K.NEG_STATUS : Nat := 0x1F2005
abbrev K.FW_SERVICE : Nat := 0x1F5001
abbrev K.FW_RUNTIME : Nat := 0x1F5002
abbrev K.PROG_CTRL : Nat := 0x1F5101
abbrev K.BOOT_STATUS : Nat := 0x1F5201
abbrev K.ISSUE_LAGS : Nat := 0x6B0001
abbrev K.ISSUE_LEAD_MIN : Nat := 0x6B0002
abbrev K.SEQ_ECC_CE : Nat := 0x6B0003
abbrev K.SEQ_ECC_UE : Nat := 0x6B0004
abbrev K.WDOG_EXPIRIES : Nat := 0x6B0005
abbrev K.MAP_CTRL : Nat := 0x280001
abbrev K.MX_PRIO : Nat := 0x280002
abbrev K.MX_TIMEOUT_M0 : Nat := 0x280003
abbrev K.MX_TIMEOUT_M1 : Nat := 0x280004
abbrev K.MX_TIMEOUT_M2 : Nat := 0x280005
abbrev K.MX_TIMEOUT_M3 : Nat := 0x280006
abbrev K.MX_TIMEOUT_M4 : Nat := 0x280007
abbrev K.MX_TIMEOUT_M5 : Nat := 0x280008
abbrev K.MX_LOCK_MAX : Nat := 0x280009
abbrev K.MX_MASTER_EN : Nat := 0x28000A
abbrev K.SV_RD_PORT : Nat := 0x28000B
abbrev K.SV_WR_PORT : Nat := 0x28000C
abbrev K.MX_DECODE_ERRS : Nat := 0x680001
abbrev K.MX_TIMEOUTS : Nat := 0x680002
abbrev K.MX_ERR_RESP : Nat := 0x680003
abbrev K.MX_LOCKS_BROKEN : Nat := 0x680004
abbrev K.MX_BURST_COMPLETIONS : Nat := 0x680005
abbrev K.MX_LOCK_STATUS : Nat := 0x680006
abbrev K.MX_LOCK_CLEAR : Nat := 0x680007
abbrev K.MX_ERR_LAST : Nat := 0x680008
abbrev K.HEARTBEAT_TICKS : Nat := 0x101701
abbrev K.RING_DEST : Nat := 0x101702
abbrev K.NODE_ADDR : Nat := 0x101703
abbrev K.RING_CRC_ERRS : Nat := 0x6E0001
abbrev K.RING_RETURNED : Nat := 0x6E0002
abbrev K.RING_SEG_TIMEOUTS : Nat := 0x6E0003
abbrev K.RING_ABORTS_SENT : Nat := 0x6E0004
abbrev K.RING_ABORT_LAST : Nat := 0x6E0005
abbrev K.EMCY_LOST : Nat := 0x6E0006
abbrev K.DEVICE_TYPE : Nat := 0x100000
abbrev K.ERROR_REG : Nat := 0x100100
abbrev K.DEVICE_NAME : Nat := 0x100800
abbrev K.HW_VERSION : Nat := 0x100900
abbrev K.SW_VERSION : Nat := 0x100A00
abbrev K.EH_COUNT : Nat := 0x100300
abbrev K.EH_ENTRY : Nat := 0x100301
abbrev K.EH_NEXT : Nat := 0x100311
abbrev K.PWR_BLOCK : Nat := 0x260001
abbrev K.PWR_IDLE_PORTS : Nat := 0x260002
abbrev K.PWR_IDLE_GROUPS : Nat := 0x260003
abbrev K.PWR_ACK_TIMEOUT : Nat := 0x260004
abbrev K.PWR_NOW : Nat := 0x660001
abbrev K.PWR_IDLE_NOW : Nat := 0x660002
abbrev K.PWR_ACCESS_FAULTS : Nat := 0x660003
abbrev K.PWR_ACK_TIMEOUTS : Nat := 0x660004
abbrev K.PWR_ACCESS_LAST : Nat := 0x660005
abbrev K.FAULT_ACK : Nat := 0x270001
abbrev K.AUTO_RETIRE : Nat := 0x270002
abbrev K.RETIRE_UE_COUNT : Nat := 0x270003
abbrev K.RETIRE_WINDOW : Nat := 0x270004
abbrev K.BIST_RETIRE : Nat := 0x270005
abbrev K.TRACE_EN : Nat := 0x271001
abbrev K.TRACE_STOP_FULL : Nat := 0x271002
abbrev K.TRACE_CLEAR : Nat := 0x271003
abbrev K.TRACE_0 : Nat := 0x271004
abbrev K.TRACE_1 : Nat := 0x271005
abbrev K.TRACE_2 : Nat := 0x271006
abbrev K.TRACE_3 : Nat := 0x271007
abbrev K.FAULT_OUT_NOW : Nat := 0x670001
abbrev K.EH_TOTAL : Nat := 0x670002
abbrev K.TRACE_NEXT : Nat := 0x670003
abbrev K.TRACE_FILL : Nat := 0x670004
abbrev K.TRACE_LOST : Nat := 0x670005
abbrev K.UNITS_OUT : Nat := 0x670006
abbrev K.ARM : Nat := 0x2F0002
abbrev K.RUN : Nat := 0x2F0003
abbrev K.CANCEL_EPOCH : Nat := 0x2F0004
abbrev K.SAVE : Nat := 0x2F0005
abbrev K.RESTORE : Nat := 0x2F0006
abbrev K.RETIRE_BANK : Nat := 0x2F0007
abbrev K.BIST : Nat := 0x2F0008
abbrev K.STOP : Nat := 0x2F0009
abbrev K.TILE_CONFIG : Nat := 0x2F000A
abbrev K.SR_CTX : Nat := 0x2F2001
abbrev K.SR_BASE : Nat := 0x2F2002
abbrev K.SR_LIMIT : Nat := 0x2F2003
abbrev K.SR_WITH_ANISE : Nat := 0x2F2004
abbrev K.LC_STATE : Nat := 0x6F0001
abbrev K.CMD_LAST : Nat := 0x6F0002
abbrev K.SR_STATUS : Nat := 0x6F0003
abbrev K.SR_BYTES : Nat := 0x6F0004
abbrev K.SR_TILES : Nat := 0x6F0005
abbrev K.BIST_STATUS : Nat := 0x6F0006
abbrev K.BIST_FAILS : Nat := 0x6F0007
abbrev K.SAFE_CAUSE : Nat := 0x6F0008
abbrev K.REQ_BIAS : Nat := 0x230010

/-- The value an entry holds after a cold reset (R334): the Default column. -/
def regDefault (k : Nat) : Nat :=
  match k with
  | 0x100311 => 1
  | 0x101701 => 1000
  | 0x101702 => 1
  | 0x101801 => 18516
  | 0x101802 => 53264
  | 0x101803 => 256
  | 0x101804 => 17
  | 0x101807 => 2
  | 0x200001 => 85000
  | 0x200002 => 1024
  | 0x200003 => 2560
  | 0x200004 => 1024
  | 0x200006 => 256
  | 0x200007 => 3
  | 0x200008 => 65536
  | 0x200009 => 64
  | 0x210002 => 1
  | 0x220001 => 1024
  | 0x220002 => 1024
  | 0x220003 => 256
  | 0x220004 => 256
  | 0x220005 => 256
  | 0x220006 => 256
  | 0x220007 => 256
  | 0x220008 => 4096
  | 0x22000B => 16384
  | 0x22000C => 2
  | 0x230001 => 15
  | 0x230002 => 64
  | 0x230003 => 32
  | 0x230004 => 256
  | 0x240001 => 2
  | 0x240002 => 2
  | 0x240003 => 16
  | 0x240004 => 1
  | 0x240005 => 128
  | 0x240006 => 64
  | 0x250001 => 256
  | 0x250002 => 4
  | 0x260004 => 65536
  | 0x270002 => 1
  | 0x270003 => 3
  | 0x270004 => 20
  | 0x270005 => 1
  | 0x270011 => 2
  | 0x271001 => 255
  | 0x280002 => 5448720
  | 0x280003 => 4096
  | 0x280004 => 4096
  | 0x280005 => 16384
  | 0x280006 => 4096
  | 0x280007 => 4096
  | 0x280008 => 65536
  | 0x280009 => 256
  | 0x28000A => 63
  | 0x28000C => 4
  | 0x2F2003 => 4718592
  | 0x2F2004 => 1
  | 0x64000A => 4096
  | 0x6F0001 => 1
  | _ => 0

/-- Dictionary entries, part 0. -/
def entryRows0 : List Entry := [
  ⟨0x200001, .uns, .cfg, 4, 4, (.span 17000 1700000)⟩,
  ⟨0x200002, .uns, .cfg, 2, 2, (.span 512 8192)⟩,
  ⟨0x200003, .uns, .cfg, 4, 4, (.span 0 262144)⟩,
  ⟨0x200004, .uns, .cfg, 4, 4, (.span 0 262144)⟩,
  ⟨0x200005, .uns, .cfg, 1, 1, (.span 0 1)⟩,
  ⟨0x200006, .uns, .cfg, 2, 2, (.span 16 4096)⟩,
  ⟨0x200007, .uns, .cfg, 1, 1, (.span 1 255)⟩,
  ⟨0x200008, .uns, .cfg, 4, 4, (.span 0 16777215)⟩,
  ⟨0x200009, .uns, .cfg, 2, 2, (.span 8 1024)⟩,
  ⟨0x20000A, .uns, .cfg, 8, 8, (.span 0 (2^40 - 1))⟩,
  ⟨0x600001, .uns, .ro, 8, 8, .any⟩,
  ⟨0x600002, .uns, .ro, 1, 1, .any⟩,
  ⟨0x600003, .int, .ro, 2, 2, .any⟩,
  ⟨0x600004, .uns, .ro, 4, 4, .any⟩,
  ⟨0x600005, .uns, .ro, 4, 4, .any⟩,
  ⟨0x600006, .uns, .ro, 4, 4, .any⟩,
  ⟨0x600007, .uns, .ro, 4, 4, .any⟩,
  ⟨0x600008, .uns, .ro, 4, 4, .any⟩,
  ⟨0x600009, .uns, .ro, 8, 8, .any⟩,
  ⟨0x60000A, .uns, .ro, 4, 4, .any⟩,
  ⟨0x60000B, .uns, .ro, 1, 1, .any⟩,
  ⟨0x60000C, .uns, .ro, 4, 4, .any⟩,
  ⟨0x60000D, .uns, .ro, 4, 4, .any⟩,
  ⟨0x60000E, .uns, .wo, 1, 1, (.span 0 1)⟩,
  ⟨0x210001, .uns, .cfg, 1, 1, (.span 0 1)⟩,
  ⟨0x210002, .uns, .rw, 1, 1, (.span 0 1)⟩,
  ⟨0x210003, .uns, .rw, 1, 1, (.span 0 127)⟩,
  ⟨0x610001, .domain, .ro, 4096, 4096, .any⟩,
  ⟨0x610002, .domain, .ro, 32, 32, .any⟩,
  ⟨0x610003, .domain, .ro, 32, 32, .any⟩,
  ⟨0x610004, .uns, .ro, 4, 4, .any⟩,
  ⟨0x610005, .uns, .ro, 4, 4, .any⟩,
  ⟨0x610006, .uns, .ro, 4, 4, .any⟩,
  ⟨0x610007, .uns, .ro, 4, 4, .any⟩,
  ⟨0x610008, .uns, .ro, 4, 4, .any⟩,
  ⟨0x610009, .uns, .wo, 1, 1, (.spanOr 0 127 255)⟩,
  ⟨0x270010, .domain, .ro, 32, 32, .any⟩,
  ⟨0x270011, .uns, .ro, 1, 1, (.span 0 2)⟩,
  ⟨0x270012, .uns, .ro, 8, 8, (.mask 0x3FFFFFFFF)⟩,
  ⟨0x270013, .uns, .ro, 1, 1, (.span 0 1)⟩]

/-- Dictionary entries, part 1. -/
def entryRows1 : List Entry := [
  ⟨0x270014, .uns, .ro, 4, 4, .any⟩,
  ⟨0x270015, .uns, .cfg, 4, 4, .eccInject⟩,
  ⟨0x611001, .uns, .ro, 4, 4, .any⟩,
  ⟨0x611002, .uns, .ro, 4, 4, .any⟩,
  ⟨0x611003, .domain, .ro, 272, 272, .any⟩,
  ⟨0x611004, .domain, .ro, 16, 16, .any⟩,
  ⟨0x611005, .uns, .ro, 4, 4, .any⟩,
  ⟨0x220001, .uns, .cfg, 2, 2, (.mult 8 2048 8)⟩,
  ⟨0x220002, .uns, .cfg, 2, 2, (.mult 8 2048 8)⟩,
  ⟨0x220003, .uns, .cfg, 2, 2, (.mult 8 256 8)⟩,
  ⟨0x220004, .uns, .cfg, 2, 2, (.mult 8 256 8)⟩,
  ⟨0x220005, .uns, .cfg, 2, 2, (.mult 8 2048 8)⟩,
  ⟨0x220006, .uns, .cfg, 2, 2, (.mult 8 2048 8)⟩,
  ⟨0x220007, .uns, .cfg, 2, 2, (.mult 8 256 8)⟩,
  ⟨0x220008, .uns, .cfg, 4, 4, (.span 64 1048576)⟩,
  ⟨0x220009, .uns, .cfg, 2, 2, (.mask 0x3FFF)⟩,
  ⟨0x22000A, .uns, .ro, 1, 1, (.mask 0x3F)⟩,
  ⟨0x620001, .uns, .ro, 4, 4, .any⟩,
  ⟨0x620002, .uns, .ro, 4, 4, .any⟩,
  ⟨0x620003, .uns, .ro, 4, 4, .any⟩,
  ⟨0x620004, .uns, .ro, 4, 4, .any⟩,
  ⟨0x620005, .uns, .ro, 4, 4, .any⟩,
  ⟨0x620006, .uns, .ro, 4, 4, .any⟩,
  ⟨0x620007, .uns, .ro, 4, 4, .any⟩,
  ⟨0x620008, .domain, .ro, 16, 16, .any⟩,
  ⟨0x620009, .domain, .ro, 48, 48, .any⟩,
  ⟨0x230001, .uns, .cfg, 1, 1, (.span 0 15)⟩,
  ⟨0x230002, .uns, .cfg, 2, 2, (.span 0 4096)⟩,
  ⟨0x230003, .uns, .cfg, 2, 2, (.span 0 4096)⟩,
  ⟨0x230004, .uns, .cfg, 4, 4, (.span 0 65536)⟩,
  ⟨0x230005, .uns, .rw, 1, 1, .reqSelect⟩,
  ⟨0x630001, .domain, .ro, 24, 24, .any⟩,
  ⟨0x630002, .domain, .ro, 24, 24, .any⟩,
  ⟨0x630003, .domain, .ro, 12, 12, .any⟩,
  ⟨0x630004, .uns, .ro, 4, 4, .any⟩,
  ⟨0x630005, .uns, .wo, 1, 1, (.spanOr 0 5 255)⟩,
  ⟨0x630006, .domain, .ro, 16, 16, .any⟩,
  ⟨0x630007, .domain, .ro, 16, 16, .any⟩,
  ⟨0x22000B, .uns, .cfg, 4, 4, (.span 1024 1048576)⟩,
  ⟨0x22000C, .uns, .cfg, 1, 1, (.span 0 15)⟩]

/-- Dictionary entries, part 2. -/
def entryRows2 : List Entry := [
  ⟨0x612001, .uns, .ro, 4, 4, .any⟩,
  ⟨0x612002, .uns, .ro, 4, 4, .any⟩,
  ⟨0x612003, .uns, .ro, 4, 4, .any⟩,
  ⟨0x612004, .uns, .ro, 4, 4, .any⟩,
  ⟨0x612005, .uns, .ro, 4, 4, .any⟩,
  ⟨0x612006, .domain, .ro, 16, 16, .any⟩,
  ⟨0x250001, .uns, .cfg, 2, 2, (.span 1 4096)⟩,
  ⟨0x250002, .uns, .cfg, 1, 1, (.span 0 255)⟩,
  ⟨0x650001, .uns, .ro, 2, 2, (.span 0 1024)⟩,
  ⟨0x650002, .uns, .ro, 2, 2, (.span 0 1024)⟩,
  ⟨0x650003, .uns, .ro, 4, 4, .any⟩,
  ⟨0x650004, .uns, .ro, 4, 4, .any⟩,
  ⟨0x650005, .uns, .ro, 4, 4, .any⟩,
  ⟨0x650006, .uns, .ro, 4, 4, .any⟩,
  ⟨0x650007, .uns, .ro, 4, 4, .any⟩,
  ⟨0x650008, .uns, .ro, 4, 4, .any⟩,
  ⟨0x650009, .domain, .ro, 512, 512, .any⟩,
  ⟨0x65000A, .uns, .ro, 4, 4, .any⟩,
  ⟨0x65000B, .uns, .ro, 4, 4, .any⟩,
  ⟨0x65000C, .uns, .ro, 4, 4, .any⟩,
  ⟨0x65000D, .uns, .ro, 4, 4, .any⟩,
  ⟨0x65000E, .uns, .ro, 4, 4, .any⟩,
  ⟨0x65000F, .domain, .ro, 16, 16, .any⟩,
  ⟨0x240001, .uns, .cfg, 1, 1, (.span 1 8)⟩,
  ⟨0x240002, .uns, .cfg, 1, 1, (.span 0 7)⟩,
  ⟨0x240003, .uns, .cfg, 2, 2, (.span 0 65535)⟩,
  ⟨0x240004, .uns, .cfg, 1, 1, (.span 0 31)⟩,
  ⟨0x240005, .uns, .cfg, 2, 2, (.span 0 256)⟩,
  ⟨0x240006, .uns, .cfg, 2, 2, (.span 1 65535)⟩,
  ⟨0x240007, .uns, .rw, 1, 1, (.span 0 1)⟩,
  ⟨0x240008, .uns, .rw, 2, 2, (.span 0 4095)⟩,
  ⟨0x240009, .domain, .cfg, 32, 32, .any⟩,
  ⟨0x24000A, .domain, .cfg, 65536, 65536, .any⟩,
  ⟨0x24000B, .domain, .cfg, 65536, 65536, .any⟩,
  ⟨0x24000C, .domain, .cfg, 65536, 65536, .any⟩,
  ⟨0x24000D, .uns, .wo, 1, 1, (.span 0 1)⟩,
  ⟨0x24000E, .uns, .wo, 2, 2, (.spanOr 0 4095 65535)⟩,
  ⟨0x640001, .uns, .ro, 4, 4, .any⟩,
  ⟨0x640002, .uns, .ro, 4, 4, .any⟩,
  ⟨0x640003, .uns, .ro, 4, 4, .any⟩]

/-- Dictionary entries, part 3. -/
def entryRows3 : List Entry := [
  ⟨0x640004, .uns, .ro, 4, 4, .any⟩,
  ⟨0x640005, .uns, .ro, 4, 4, .any⟩,
  ⟨0x640006, .uns, .ro, 4, 4, .any⟩,
  ⟨0x640007, .uns, .ro, 4, 4, .any⟩,
  ⟨0x640008, .uns, .ro, 4, 4, .any⟩,
  ⟨0x640009, .uns, .ro, 4, 4, .any⟩,
  ⟨0x64000A, .uns, .ro, 2, 2, (.span 0 4096)⟩,
  ⟨0x64000B, .uns, .ro, 4, 4, .any⟩,
  ⟨0x64000C, .uns, .ro, 4, 4, .any⟩,
  ⟨0x64000D, .domain, .ro, 16, 16, .any⟩,
  ⟨0x64000E, .domain, .ro, 16, 16, .any⟩,
  ⟨0x64000F, .domain, .ro, 16, 16, .any⟩,
  ⟨0x2F0001, .uns, .wo, 1, 1, (.span 1 1)⟩,
  ⟨0x2F1001, .domain, .cfg, 1, 65536, .any⟩,
  ⟨0x2F1002, .domain, .cfg, 1, 65536, .any⟩,
  ⟨0x6A0001, .uns, .ro, 1, 1, (.span 0 4)⟩,
  ⟨0x6A0002, .domain, .ro, 32, 32, .any⟩,
  ⟨0x6A0003, .uns, .ro, 4, 4, .any⟩,
  ⟨0x6A0004, .domain, .ro, 16, 16, .any⟩,
  ⟨0x6A0005, .uns, .ro, 2, 2, (.span 0 4095)⟩,
  ⟨0x6A0006, .uns, .ro, 4, 4, .any⟩,
  ⟨0x6A0007, .uns, .ro, 4, 4, .any⟩,
  ⟨0x101801, .uns, .const, 4, 4, .any⟩,
  ⟨0x101802, .uns, .const, 4, 4, .any⟩,
  ⟨0x101803, .uns, .const, 2, 2, .any⟩,
  ⟨0x101804, .uns, .const, 1, 1, .any⟩,
  ⟨0x101805, .uns, .ro, 4, 4, .any⟩,
  ⟨0x101806, .uns, .ro, 4, 4, .any⟩,
  ⟨0x101807, .uns, .ro, 1, 1, .any⟩,
  ⟨0x101808, .uns, .ro, 8, 8, .any⟩,
  ⟨0x1F1001, .uns, .const, 1, 1, (.span 0 64)⟩,
  ⟨0x1F1002, .domain, .const, 1, 768, .any⟩,
  ⟨0x1F2001, .uns, .ro, 2, 2, .any⟩,
  ⟨0x1F2002, .uns, .ro, 2, 2, .any⟩,
  ⟨0x1F2003, .uns, .ro, 2, 2, .any⟩,
  ⟨0x1F2004, .uns, .cfg, 1, 1, (.span 0 1)⟩,
  ⟨0x1F2005, .uns, .ro, 1, 1, (.span 0 3)⟩,
  ⟨0x1F5001, .domain, .wo, 64, 65536, .any⟩,
  ⟨0x1F5002, .domain, .wo, 64, 65536, .any⟩,
  ⟨0x1F5101, .uns, .wo, 1, 1, (.span 1 2)⟩]

/-- Dictionary entries, part 4. -/
def entryRows4 : List Entry := [
  ⟨0x1F5201, .uns, .ro, 1, 1, .any⟩,
  ⟨0x6B0001, .uns, .ro, 4, 4, .any⟩,
  ⟨0x6B0002, .uns, .ro, 4, 4, .any⟩,
  ⟨0x6B0003, .uns, .ro, 4, 4, .any⟩,
  ⟨0x6B0004, .uns, .ro, 4, 4, .any⟩,
  ⟨0x6B0005, .uns, .ro, 4, 4, .any⟩,
  ⟨0x280001, .uns, .ro, 4, 4, .any⟩,
  ⟨0x280002, .uns, .cfg, 4, 4, .prio⟩,
  ⟨0x280003, .uns, .cfg, 4, 4, (.span 256 1048576)⟩,
  ⟨0x280004, .uns, .cfg, 4, 4, (.span 256 1048576)⟩,
  ⟨0x280005, .uns, .cfg, 4, 4, (.span 256 1048576)⟩,
  ⟨0x280006, .uns, .cfg, 4, 4, (.span 256 1048576)⟩,
  ⟨0x280007, .uns, .cfg, 4, 4, (.span 256 1048576)⟩,
  ⟨0x280008, .uns, .cfg, 4, 4, (.span 256 1048576)⟩,
  ⟨0x280009, .uns, .cfg, 2, 2, (.span 16 4096)⟩,
  ⟨0x28000A, .uns, .cfg, 1, 1, .masterEn⟩,
  ⟨0x28000B, .uns, .cfg, 1, 1, (.span 0 3)⟩,
  ⟨0x28000C, .uns, .cfg, 1, 1, (.span 4 5)⟩,
  ⟨0x680001, .uns, .ro, 4, 4, .any⟩,
  ⟨0x680002, .domain, .ro, 24, 24, .any⟩,
  ⟨0x680003, .uns, .ro, 4, 4, .any⟩,
  ⟨0x680004, .uns, .ro, 4, 4, .any⟩,
  ⟨0x680005, .uns, .ro, 4, 4, .any⟩,
  ⟨0x680006, .uns, .ro, 4, 4, .any⟩,
  ⟨0x680007, .uns, .wo, 2, 2, (.mask 0x3FF)⟩,
  ⟨0x680008, .domain, .ro, 16, 16, .any⟩,
  ⟨0x101701, .uns, .rw, 2, 2, (.span 0 65535)⟩,
  ⟨0x101702, .uns, .rw, 1, 1, (.span 1 254)⟩,
  ⟨0x101703, .uns, .ro, 1, 1, (.span 2 254)⟩,
  ⟨0x6E0001, .uns, .ro, 4, 4, .any⟩,
  ⟨0x6E0002, .uns, .ro, 4, 4, .any⟩,
  ⟨0x6E0003, .uns, .ro, 4, 4, .any⟩,
  ⟨0x6E0004, .uns, .ro, 4, 4, .any⟩,
  ⟨0x6E0005, .domain, .ro, 8, 8, .any⟩,
  ⟨0x6E0006, .uns, .ro, 4, 4, .any⟩,
  ⟨0x100000, .uns, .const, 4, 4, .any⟩,
  ⟨0x100100, .uns, .ro, 1, 1, .any⟩,
  ⟨0x100800, .string, .const, 5, 5, .any⟩,
  ⟨0x100900, .string, .const, 6, 6, .any⟩,
  ⟨0x100A00, .string, .ro, 0, 32, .any⟩]

/-- Dictionary entries, part 5. -/
def entryRows5 : List Entry := [
  ⟨0x100300, .uns, .rw, 1, 1, (.span 0 0)⟩,
  ⟨0x100301, .domain, .ro, 16, 16, .any⟩,
  ⟨0x100302, .domain, .ro, 16, 16, .any⟩,
  ⟨0x100303, .domain, .ro, 16, 16, .any⟩,
  ⟨0x100304, .domain, .ro, 16, 16, .any⟩,
  ⟨0x100305, .domain, .ro, 16, 16, .any⟩,
  ⟨0x100306, .domain, .ro, 16, 16, .any⟩,
  ⟨0x100307, .domain, .ro, 16, 16, .any⟩,
  ⟨0x100308, .domain, .ro, 16, 16, .any⟩,
  ⟨0x100309, .domain, .ro, 16, 16, .any⟩,
  ⟨0x10030A, .domain, .ro, 16, 16, .any⟩,
  ⟨0x10030B, .domain, .ro, 16, 16, .any⟩,
  ⟨0x10030C, .domain, .ro, 16, 16, .any⟩,
  ⟨0x10030D, .domain, .ro, 16, 16, .any⟩,
  ⟨0x10030E, .domain, .ro, 16, 16, .any⟩,
  ⟨0x10030F, .domain, .ro, 16, 16, .any⟩,
  ⟨0x100310, .domain, .ro, 16, 16, .any⟩,
  ⟨0x100311, .uns, .ro, 1, 1, (.span 1 16)⟩,
  ⟨0x260001, .uns, .rw, 1, 1, (.list [0, 2, 3])⟩,
  ⟨0x260002, .uns, .rw, 1, 1, (.mask 0x3F)⟩,
  ⟨0x260003, .uns, .rw, 1, 1, (.mask 0xFF)⟩,
  ⟨0x260004, .uns, .cfg, 4, 4, (.span 1024 16777215)⟩,
  ⟨0x660001, .uns, .ro, 1, 1, .any⟩,
  ⟨0x660002, .uns, .ro, 2, 2, .any⟩,
  ⟨0x660003, .uns, .ro, 4, 4, .any⟩,
  ⟨0x660004, .uns, .ro, 4, 4, .any⟩,
  ⟨0x660005, .domain, .ro, 16, 16, .any⟩,
  ⟨0x270001, .uns, .wo, 1, 1, (.mask 0x7)⟩,
  ⟨0x270002, .uns, .cfg, 1, 1, (.span 0 1)⟩,
  ⟨0x270003, .uns, .cfg, 1, 1, (.span 1 255)⟩,
  ⟨0x270004, .uns, .cfg, 1, 1, (.span 8 30)⟩,
  ⟨0x270005, .uns, .cfg, 1, 1, (.span 0 1)⟩,
  ⟨0x271001, .uns, .rw, 4, 4, (.mask 0xFF)⟩,
  ⟨0x271002, .uns, .rw, 1, 1, (.span 0 1)⟩,
  ⟨0x271003, .uns, .wo, 1, 1, (.span 1 1)⟩,
  ⟨0x271004, .domain, .ro, 65536, 65536, .any⟩,
  ⟨0x271005, .domain, .ro, 65536, 65536, .any⟩,
  ⟨0x271006, .domain, .ro, 65536, 65536, .any⟩,
  ⟨0x271007, .domain, .ro, 65536, 65536, .any⟩,
  ⟨0x670001, .uns, .ro, 1, 1, (.mask 0xF)⟩]

/-- Dictionary entries, part 6. -/
def entryRows6 : List Entry := [
  ⟨0x670002, .uns, .ro, 4, 4, .any⟩,
  ⟨0x670003, .uns, .ro, 4, 4, (.span 0 262143)⟩,
  ⟨0x670004, .uns, .ro, 4, 4, (.span 0 262144)⟩,
  ⟨0x670005, .uns, .ro, 4, 4, .any⟩,
  ⟨0x670006, .uns, .ro, 1, 1, (.mask 1)⟩,
  ⟨0x2F0002, .uns, .wo, 1, 1, (.span 1 1)⟩,
  ⟨0x2F0003, .uns, .wo, 1, 1, (.span 1 1)⟩,
  ⟨0x2F0004, .uns, .wo, 4, 4, .cancel⟩,
  ⟨0x2F0005, .uns, .wo, 1, 1, (.span 1 1)⟩,
  ⟨0x2F0006, .uns, .wo, 1, 1, (.span 1 1)⟩,
  ⟨0x2F0007, .uns, .wo, 1, 1, (.span 0 33)⟩,
  ⟨0x2F0008, .uns, .wo, 1, 1, (.maskNZ 0x1F)⟩,
  ⟨0x2F0009, .uns, .wo, 1, 1, (.span 1 2)⟩,
  ⟨0x2F000A, .domain, .wo, 12, 12, .any⟩,
  ⟨0x2F2001, .uns, .rw, 1, 1, (.span 0 1)⟩,
  ⟨0x2F2002, .uns, .rw, 8, 8, (.mult 0 (2^57 - 32) 32)⟩,
  ⟨0x2F2003, .uns, .rw, 4, 4, (.mult 32 4294967264 32)⟩,
  ⟨0x2F2004, .uns, .rw, 1, 1, (.span 0 1)⟩,
  ⟨0x6F0001, .uns, .ro, 1, 1, (.span 1 7)⟩,
  ⟨0x6F0002, .domain, .ro, 16, 16, .any⟩,
  ⟨0x6F0003, .uns, .ro, 1, 1, (.span 0 7)⟩,
  ⟨0x6F0004, .uns, .ro, 4, 4, .any⟩,
  ⟨0x6F0005, .uns, .ro, 1, 1, (.span 0 64)⟩,
  ⟨0x6F0006, .uns, .ro, 1, 1, (.span 0 3)⟩,
  ⟨0x6F0007, .domain, .ro, 8, 8, .any⟩,
  ⟨0x6F0008, .uns, .ro, 2, 2, .any⟩]

/-- `REQ_BIAS` of requester i on port p, at 0x2300:10 + 16p + i (06_sumac.md R150). -/
def biasRows : List Entry :=
  (List.range 96).map (fun i => ⟨K.REQ_BIAS + i, .int, .rw, 4, 4, .bias⟩)

/-- Every entry of the dictionary but the sub-indices 0x00 of record objects. -/
def entryRows : List Entry :=
  entryRows0 ++ entryRows1 ++ entryRows2 ++ entryRows3 ++ entryRows4 ++ entryRows5 ++ entryRows6 ++ biasRows

/-- The objects (R336) with the highest sub-index each defines. -/
def objects : List (Nat × Nat) := [
  (0x1000, 0), (0x1001, 0), (0x1003, 17), (0x1008, 0), (0x1009, 0), (0x100A, 0), (0x1017, 3), (0x1018, 8), (0x1F10, 2), (0x1F20, 5), (0x1F50, 2), (0x1F51, 1), (0x1F52, 1), (0x2000, 10), (0x2100, 3), (0x2200, 12), (0x2300, 111), (0x2400, 14), (0x2500, 2), (0x2600, 4), (0x2700, 21), (0x2710, 7), (0x2800, 12), (0x2F00, 10), (0x2F10, 2), (0x2F20, 4), (0x6000, 14), (0x6100, 9), (0x6110, 5), (0x6120, 6), (0x6200, 9), (0x6300, 7), (0x6400, 15), (0x6500, 15), (0x6600, 5), (0x6700, 6), (0x6800, 8), (0x6A00, 7), (0x6B00, 5), (0x6E00, 6), (0x6F00, 8)]

/-- The entry at a key; sub-index 0x00 of a record object reads the highest sub-index (R329). -/
def entryAt (k : Nat) : Option Entry :=
  match entryRows.find? (fun e => e.key == k) with
  | some e => some e
  | none =>
    if k % 256 = 0 ∧ objects.any (fun o => o.1 == k / 256 && o.2 != 0) then some ⟨k, .uns, .const, 1, 1, .any⟩ else none

/-- RW entries whose value is in force from the second cycle after its write (14_dictionary.md R333; 06_sumac.md R146). The others act
by a rule of their own, or are only read by a later request (log entry 68). -/
def delayedKey (k : Nat) : Bool :=
  [K.DEAD_READ_REPORT, K.CLOVE_ALARM_MASK, K.HEARTBEAT_TICKS, K.RING_DEST, K.TRACE_EN, K.TRACE_STOP_FULL].contains k
  || (decide (K.REQ_BIAS ≤ k) && decide (k < K.REQ_BIAS + 96))

/-- Entries whose write invalidates a valid image (10_descriptors.md R263). -/
def checkedEntry (k : Nat) : Bool :=
  (decide (0x200001 ≤ k) && decide (k ≤ 0x200004)) || (decide (0x220001 ≤ k) && decide (k ≤ 0x220009)) || k == 0x250001

end Sys2Proof.Machine
end

