-- ==== Sys2Proof/Machine/Ops.lean ====
section
/-! DEFINITION. The named operations over the block's registers: dictionary values, counters, error history, trace,
tile status words, bank mapping, entry to Safe. Every write of a register goes through one of them. -/

namespace Sys2Proof.Machine

/-- The value of a scalar dictionary entry. -/
def Blk.reg (b : Blk) (k : Nat) : Nat := Tab.get regDefault b.regs k

def Blk.setReg (b : Blk) (k v : Nat) : Blk := { b with regs := Tab.set regDefault b.regs k v }

/-- The value of an RW-CFG entry that the hardware uses (14_dictionary.md R333). -/
def Blk.cfg (b : Blk) (k : Nat) : Nat := Tab.get regDefault b.force k

/-- The value of an RW entry that is in force: a written one is so from the second cycle after the write (14_dictionary.md R333). -/
def Blk.rw (b : Blk) (k : Nat) : Nat :=
  match b.rwWait.find? (fun w => w.1 == k && decide (b.tick.wall < w.2.1)) with
  | some w => w.2.2
  | none => b.reg k

/-- Write a scalar entry; an RW value until now may stay in force for two cycles more. -/
def Blk.writeReg (b : Blk) (k v : Nat) : Blk :=
  let b1 := b.setReg k v
  if delayedKey k then
    { b1 with rwWait := b.rwWait.filter (fun w => decide (b.tick.wall < w.2.1)) ++ [(k, b.tick.wall + 2, b.reg k)] }
  else b1

/-- Add `n` to a counter of `w` bits, saturating. -/
def Blk.count (b : Blk) (k : Nat) (n : Nat := 1) (w : Nat := 32) : Blk :=
  b.setReg k (min (b.reg k + n) (2 ^ w - 1))

/-- The bytes of a record entry of `n` bytes. -/
def Blk.record (b : Blk) (k n : Nat) : List Byte := padTo (Tab.get (fun _ => []) b.recs k) n

def Blk.setRec (b : Blk) (k : Nat) (v : List Byte) : Blk := { b with recs := Tab.set (fun _ => []) b.recs k v }

/-- Add one to the 32-bit counter at byte `a` of a record of `n` bytes, saturating. -/
def Blk.countIn (b : Blk) (k n a : Nat) : Blk :=
  b.setRec k (putBytes (b.record k n) a (leBytes 4 (min (fieldAt (b.record k n) a 4 + 1) 0xFFFFFFFF)))

/-- A fresh free value (log entry 2). -/
def Blk.freeValue (b : Blk) : Nat := Config.freeValue b.fresh
def Blk.takeFree (b : Blk) : Blk := { b with fresh := b.fresh + 1 }

/-- A logical stamp (02_tick.md R49). -/
def mkStamp (tick lcyc qtr : Nat) : Stamp := BitVec.ofNat 64 (tick % 2 ^ 40 * 2 ^ 24 + lcyc % 2 ^ 21 * 8 + qtr % 4 * 2)

/-- `TICK_NOW`: the stamp of the current logical cycle (R56). -/
def Blk.stamp (b : Blk) : Stamp := mkStamp b.tick.tick b.tick.lcyc 0

/-- Ticks run (15_states_power.md R352). -/
def Blk.ticking (b : Blk) : Bool := b.lc == .running || b.lc == .holding || b.lc == .draining

/-- `S`, the end of the schedule region (R30). -/
def Blk.regionEnd (b : Blk) : Nat :=
  b.cfg K.TICK_LEN - b.cfg K.GUARD - b.cfg K.RECOMP_RESERVE - b.cfg K.FAULT_SLACK

/-- The tick is in its guard band, guard extensions included. -/
def Blk.inGuard (b : Blk) : Bool := b.tick.guardDone || decide (b.cfg K.TICK_LEN - b.cfg K.GUARD ≤ b.tick.lcyc)

/-- A guard-extension cycle: the counter stays at `TICK_LEN` - 1 (R37). A cycle in which the boundary waits for `HOLD_IN` (R46) is none. -/
def Blk.inExt (b : Blk) : Bool := b.ticking && decide (b.cfg K.TICK_LEN ≤ b.tick.unheld) && !b.tick.ended && !b.tick.endHold

/-! ### Trace (16_faults.md R388 to R390) -/

/-- A record is written at `TRACE_NEXT`, or lost to a full buffer (R390); `now`: a record of this cycle. -/
def Blk.placeRecord (b : Blk) (r : List Byte) (now : Bool) : Blk :=
  if b.rw K.TRACE_STOP_FULL == 1 && decide (262144 ≤ b.reg K.TRACE_FILL) then
    { b with flt := { b.flt with trDrop := if now then b.flt.trDrop ++ [r] else b.flt.trDrop } }.count K.TRACE_LOST
  else
    let at' := b.reg K.TRACE_NEXT / 32
    let old := if now then (at', Tab.get (fun _ => []) b.trace at') :: b.flt.trOld else b.flt.trOld
    let b1 := { b with trace := Tab.set (fun _ => []) b.trace at' r, flt := { b.flt with trOld := old } }
    (b1.setReg K.TRACE_NEXT ((b.reg K.TRACE_NEXT + 32) % 262144)).setReg K.TRACE_FILL (min (b.reg K.TRACE_FILL + 32) 262144)

/-- The next record of the trace writer, master M4, waits at the matrix: behind an older access of M4, at a lock of the trace buffer, or as
a decode error while M4 is disabled (12_service_matrix.md R305, R312). -/
def Blk.m4Waits (b : Blk) : Bool :=
  !b.flt.trWait.isEmpty || b.mx.waits.any (fun w => w.burst.master == 4 && !w.behalf) || b.mx.locks.any (fun l => l.1 == 6)
  || !bit (b.cfg K.MX_MASTER_EN) 4

/-- A record waits; a disabled M4 stays so while records wait (R312). -/
def Blk.queueRecord (b : Blk) (r : List Byte) : Blk :=
  let off := match b.flt.trWait, b.mx.waits.find? (fun w => w.burst.master == 4 && !w.behalf) with
    | x :: _, _ => x.off
    | [], some w => !w.en
    | [], none => !bit (b.cfg K.MX_MASTER_EN) 4
  { b with flt := { b.flt with trWait := b.flt.trWait ++ [{ since := b.tick.wall, off := off, record := r }] } }

/-- Make a trace record of kind `kind`, class bit `cls`, with payload bytes from 16 on. -/
def Blk.traceRec (b : Blk) (kind cls : Nat) (payload : List Byte) : Blk :=
  if !bit (b.rw K.TRACE_EN) cls then b
  else
    let flags := (if b.tick.frozen then 1 else 0) + (if b.inExt then 2 else 0) + (if b.ticking then 0 else 4)
    let r := leBytes 8 b.stamp.toNat ++ [BitVec.ofNat 8 kind, BitVec.ofNat 8 flags, 0, 0] ++ leBytes 4 b.flt.trSeq
      ++ padTo payload 16
    let b' := { b with flt := { b.flt with trSeq := (b.flt.trSeq + 1) % 2 ^ 32 } }
    if b.m4Waits then b'.queueRecord r else b'.placeRecord r true

/-- What the next cycle does, done in this one under its stamp (log entry 59). -/
def Blk.inNext (b : Blk) (f : Blk → Blk) : Blk :=
  let runs := b.ticking && !b.tick.frozen
  let t : TickUnit :=
    { b.tick with wall := b.tick.wall + 1, lcyc := if runs then min (b.tick.lcyc + 1) (b.cfg K.TICK_LEN - 1) else b.tick.lcyc }
  let b1 := f { b with tick := t }
  { b1 with tick := { b1.tick with wall := b.tick.wall, lcyc := b.tick.lcyc } }

/-! ### Error history, fault pins, emergency frames -/

/-- `ERROR_REG` (14_dictionary.md R338), derived from the state it reports; `extra`: bits that rise in the next cycle. -/
def Blk.errorRegWith (b : Blk) (extra : Nat) : Nat :=
  let r := Nat.lor extra <| (if bit b.flt.out 0 then 2 else 0) + (if bit b.flt.out 1 then 4 else 0) + (if bit b.flt.out 2 then 8 else 0)
    + (if bit b.flt.out 3 then 16 else 0) + (if bit (b.reg K.SYNC_STATE) 1 then 32 else 0)
    + (if b.reg K.SPARES_FREE < 2 || b.reg K.HALF_MODE == 1 || b.reg K.PORT_FENCED != 0 || b.reg K.UNITS_OUT != 0
        then 64 else 0)
    + (if b.lc == .safe then 128 else 0)
  if r < 4 then r else r + 1

def Blk.errorReg (b : Blk) : Nat := b.errorRegWith 0

/-- A ring frame with its CRC (13_evien.md R313). -/
def mkFrame (dst : Byte) (svc ctl : Nat) (index sub : Nat) (payload : List Byte) : List Byte :=
  let f := [dst, Config.nodeAddr, BitVec.ofNat 8 svc, BitVec.ofNat 8 ctl] ++ leBytes 2 index
    ++ [BitVec.ofNat 8 sub, BitVec.ofNat 8 payload.length] ++ payload
  f ++ leBytes 2 (crc16 f)

/-- Queue an emergency frame for the entry at position `pos`; its error register is that of the next cycle (R324). -/
def Blk.emergency (b : Blk) (pos code cls extra : Nat) : Blk :=
  if b.ring.fenced || b.pins.ringLow then b
  else if 8 ≤ b.ring.emcy.length then b.count K.EMCY_LOST
  else
    let f := mkFrame (BitVec.ofNat 8 (b.rw K.RING_DEST)) 6 0 0x1003 pos
      (leBytes 2 code ++ [BitVec.ofNat 8 (b.errorRegWith extra), BitVec.ofNat 8 cls] ++ leBytes 4 b.stamp.toNat)
    { b with ring := { b.ring with emcy := b.ring.emcy ++ [f] } }

/-- Put a frame of Doluo's own into its queue. -/
def Blk.reply (b : Blk) (node svc ctl index sub : Nat) (payload : List Byte) : Blk :=
  { b with ring := { b.ring with answers := b.ring.answers ++ [mkFrame (BitVec.ofNat 8 node) svc ctl index sub payload] } }

/-- An abort in place of an answer. -/
def Blk.abortReply (b : Blk) (node index sub code : Nat) : Blk :=
  ((b.count K.RING_ABORTS_SENT).setRec K.RING_ABORT_LAST (leBytes 4 code ++ leBytes 2 index
    ++ [BitVec.ofNat 8 sub, BitVec.ofNat 8 node])).reply node 0x84 0 index sub (leBytes 4 code)

/-- An event of this cycle has set the bit of key `k`, which a write can clear (log entry 81). -/
def Blk.noteSet (b : Blk) (k : Nat) : Blk :=
  { b with flt := { b.flt with outAt := Tab.set (fun _ => 0) b.flt.outAt k (b.tick.wall + 1) } }

/-- An event of this cycle has set it: a clear of this cycle comes before the event (14_dictionary.md R351). -/
def Blk.setNow (b : Blk) (k : Nat) : Bool := Tab.get (fun _ => 0) b.flt.outAt k == b.tick.wall + 1

/-- Enter an event in the error history: class 0 info, 1 warning, 2 step-replay, 3 cell-out (R340, R341); its `FAULT_OUT` bit is
set (R19). -/
def Blk.enterEvent (b : Blk) (code cls unit : Nat) : Blk :=
  let pos := (b.reg K.EH_NEXT + 15) % 16 + 1
  let seq := (b.flt.ehSeq + 1) % 2 ^ 32
  let e := leBytes 2 code ++ [BitVec.ofNat 8 cls, BitVec.ofNat 8 unit] ++ leBytes 4 seq ++ leBytes 8 b.stamp.toNat
  let b1 := { b with flt :=
    { b.flt with ehSeq := seq, out := Nat.lor b.flt.out (2 ^ cls), outAt := Tab.set (fun _ => 0) b.flt.outAt cls (b.tick.wall + 1),
                 today := b.flt.today ++ [e] } }
  (((b1.setRec (K.EH_COUNT + pos) e).setReg K.EH_NEXT (pos % 16 + 1)).setReg K.EH_COUNT (min (b.reg K.EH_COUNT + 1) 16)).count
    K.EH_TOTAL

/-- An event: its entry, its trace record (R389), and from class 1 on an emergency frame (R324). `extra`: bits of `ERROR_REG`
that rise with it. -/
def Blk.eventWith (b : Blk) (code cls unit extra : Nat) : Blk :=
  let b1 := (b.enterEvent code cls unit).traceRec 1 0
    (leBytes 2 code ++ [BitVec.ofNat 8 cls, BitVec.ofNat 8 unit] ++ leBytes 4 ((b.flt.ehSeq + 1) % 2 ^ 32))
  if cls = 0 then b1 else b1.emergency ((b.reg K.EH_NEXT + 15) % 16 + 1) code cls extra

def Blk.event (b : Blk) (code cls unit : Nat) : Blk := b.eventWith code cls unit 0

/-- The first event of its kind in a tick (`k` names the kind): enter it, and mark it taken. -/
def Blk.firstEvent (b : Blk) (k code cls unit : Nat) : Blk :=
  if b.flt.firsts.contains k then b
  else ({ b with flt := { b.flt with firsts := k :: b.flt.firsts } }).event code cls unit

/-! ### Shapes and tiles (03_tile_registers.md) -/

def shRows (w : Nat) : Nat := bits w 7 0
def shUnits (w : Nat) : Nat := bits w 15 8
/-- `RB`, the row length in bytes (R59). -/
def shRB (w : Nat) : Nat := 32 * shUnits w
def shFmt (w : Nat) : Nat := bits w 19 16
def shMode (w : Nat) : Nat := bits w 21 20
def shPad (w : Nat) : Nat := bits w 31 24
/-- Fed rows: `PAD_TO`, or `ROWS` if it is 0. -/
def shFed (w : Nat) : Nat := if shPad w = 0 then shRows w else shPad w
/-- Quarters below `ceil(RB / 256)`. -/
def shQuarters (w : Nat) : Nat := ceilDiv (shRB w) 256

/-- Element bits of a format (R60). -/
def fmtBits (f : Nat) : Nat :=
  match f with
  | 0 => 32 | 1 => 16 | 2 => 16 | 7 => 6 | 8 => 6 | 9 => 4 | 12 => 32 | 13 => 16 | 14 => 32 | _ => 8

/-- Elements of a row of `rb` bytes (R61). -/
def elemsPerRow (f rb : Nat) : Nat := if fmtBits f = 6 then rb / 96 * 128 else 8 * rb / fmtBits f

def isMX (f : Nat) : Bool := decide (5 ≤ f) && decide (f ≤ 10)

/-- The pair of format and scale mode is allowed (R63). -/
def pairOk (f m : Nat) : Bool :=
  if isMX f then m == 2 else if f = 12 || f = 13 || f = 14 then m == 0 else decide (f ≤ 11) && decide (m ≤ 1)

/-- The shape word is one that R59 and R62 allow. -/
def shapeOk (w : Nat) : Bool :=
  decide (1 ≤ shRows w) && decide (shRows w ≤ 64) && decide (1 ≤ shUnits w) && decide (shUnits w ≤ 32)
  && decide (shFmt w ≤ 14) && decide (shMode w ≤ 2) && bits w 23 22 == 0
  && (shPad w == 0 || (decide (shRows w ≤ shPad w) && decide (shPad w ≤ 64)))
  && (!(shFmt w == 7 || shFmt w == 8) || shRB w % 96 == 0)

def Blk.tile (b : Blk) (s : Nat) : Tile := Tab.get (fun _ => ({} : Tile)) b.tiles s

/-- Code of a tile state (R67). -/
def TState.code : TState → Nat
  | .empty => 0 | .loading => 1 | .part => 2 | .valid => 3 | .overflowed => 4 | .committed => 5 | .damaged => 6

/-- Replace a status word; a change of `STATE` sets `LAST_STAMP` and makes a trace record of kind 6, with the
opcode that caused it, 0 for an event (R67, R389). -/
def Blk.setTile (b : Blk) (opc s : Nat) (t : Tile) : Blk :=
  let o := b.tile s
  if o.state = t.state then { b with tiles := Tab.set (fun _ => ({} : Tile)) b.tiles s t }
  else
    ({ b with tiles := Tab.set (fun _ => ({} : Tile)) b.tiles s { t with lastStamp := b.stamp } }).traceRec 6 3
      (leBytes 2 s ++ [BitVec.ofNat 8 o.state.code, BitVec.ofNat 8 t.state.code, BitVec.ofNat 8 opc, 0, 0, 0]
        ++ leBytes 8 t.rowValid.toNat)

/-- The live-row count: 1 plus the highest valid row, or 0 (R72). -/
def Tile.live (t : Tile) : Nat := if t.rowValid = 0 then 0 else Nat.log2 t.rowValid.toNat + 1

/-- Bits of rows `a` to `a + n - 1`. -/
def rowMask (a n : Nat) : BitVec 64 := BitVec.ofNat 64 ((2 ^ n - 1) * 2 ^ a)

/-- The 32-byte status word (R67). -/
def Tile.word (t : Tile) : List Byte :=
  let live := t.live
  let f (c : Bool) (i : Nat) : Nat := if c then 2 ^ i else 0
  leBytes 8 t.rowValid.toNat
  ++ leBytes 4 (t.epoch + t.startRow * 2 ^ 16 + (live % 64) * 2 ^ 24 + f (live == 64) 30 + f t.inUse 31)
  ++ leBytes 4 (t.state.code + f t.deadRead 3 + f t.zread 4 + f t.abandoned 5 + f t.pinned 6 + f t.scrubPend 7
      + f t.unrecomp 8 + t.writers * 2 ^ 9 + t.scaleSlot * 2 ^ 16)
  ++ leBytes 4 t.shape ++ leBytes 4 t.maceDisc ++ leBytes 8 t.lastStamp.toNat

/-! ### Banks (04_banks.md R89, R90, R111) -/

/-- Physical bank of logical bank `l`: the remap table, whose default is the identity. -/
def Blk.bankMap (b : Blk) (l : Nat) : Nat :=
  match b.recs.find? (fun c => c.1 == K.BANK_MAP) with
  | some c => (byteAt c.2 l).toNat
  | none => l

def Blk.bankMapBytes (b : Blk) : List Byte := (List.range 32).map (fun l => BitVec.ofNat 8 (b.bankMap l))

def Blk.half (b : Blk) : Bool := b.reg K.HALF_MODE == 1

/-- The claim number of a row's group: g in full mode, h in half mode. -/
def Blk.claimOf (b : Blk) (s r : Nat) : Nat := if b.half then (r + s) % 4 else (r + s) % 8

/-- Bank group of row `r` of slot `s`. -/
def Blk.groupOf (b : Blk) (s r : Nat) : Nat :=
  if b.half then bits (b.reg K.HALF_GROUPS) (8 * ((r + s) % 4) + 7) (8 * ((r + s) % 4)) else (r + s) % 8

def Blk.entryOf (b : Blk) (s r : Nat) : Nat := if b.half then 16 * s + r / 4 else 8 * s + r / 8

/-- Physical bank of quarter `q` of a row. -/
def Blk.physOf (b : Blk) (s r q : Nat) : Nat := b.bankMap (4 * b.groupOf s r + q)

def Blk.retired (b : Blk) (p : Nat) : Bool := bit (b.reg K.BANKS_RETIRED) p

/-- A group is intact when each of its banks maps to a physical bank that is not retired (R111). -/
def Blk.intact (b : Blk) (g : Nat) : Bool := (List.range 4).all (fun q => !b.retired (b.bankMap (4 * g + q)))

def Blk.intactGroups (b : Blk) : List Nat := (List.range 8).filter b.intact

/-! ### Operations in flight -/

def Blk.op? (b : Blk) (id : Nat) : Option Op := b.ops.find? (fun o => o.id == id)

def Blk.setOp (b : Blk) (o : Op) : Blk := { b with ops := b.ops.map (fun x => if x.id = o.id then o else x) }

def Blk.requester (b : Blk) (port id : Nat) : Requester := Tab.get (fun _ => ({} : Requester)) b.reqs (16 * port + id)

def Blk.setRequester (b : Blk) (port id : Nat) (r : Requester) : Blk :=
  { b with reqs := Tab.set (fun _ => ({} : Requester)) b.reqs (16 * port + id) r }

/-- Purge what the merge unit holds for rows of a slot (08_route_merge.md R203): every leaf, node and result. A `TMERGE` writes
nothing more for them; a `TRETURN` starts them anew with its later leaves. -/
def Blk.purgeSlot (b : Blk) (s : Nat) : Blk :=
  let merge (m : SemOp) : Bool := (b.op? m.op).any (fun o => o.d.opc == 0x32)
  { b with sems := b.sems.map (fun m => if merge m then { m with rows := m.rows.map (fun r =>
      if r.slot = s then { r with leaves := [], single := none, preload := none, result := none, ready := none, done := true, adds := [] }
      else r) } else { m with rows := m.rows.filter (fun r => r.slot != s) }) }

/-- The trigger that decides the outcome of an abort that is already pending: a timeout gives way to a trigger that ends the transfer, and
the first of those stands (07_rows_in_out.md R163; log entry 60). -/
def laterTrigger (old new : Nat) : Nat := if old = 0 then new else old

/-- Pre-empt an active transfer (07_rows_in_out.md R163); its abort command beat follows (R154). One that is being aborted already
keeps its abort, with the outcome that `laterTrigger` gives. -/
def Blk.abortXfer (b : Blk) (tn trigger : Nat) : Blk :=
  { b with xfers := b.xfers.map (fun x => if x.tn = tn then
      (match x.aborting with
      | none => { x with aborting := some trigger, abortAt := b.tick.wall, abortSent := false }
      | some t => { x with aborting := some (laterTrigger t trigger) }) else x) }

/-- Transfers whose tile is slot `s`. -/
def Blk.xfersOf (b : Blk) (s : Nat) : List Xfer :=
  b.xfers.filter (fun x => (b.op? x.op).any (fun o => o.d.slot == s))

/-- Set `PINNED` of slots as the pending overflows give it (03_tile_registers.md R71). -/
def Blk.repin (b : Blk) (ss : List Nat) : Blk :=
  ss.foldl (fun b s => { b with
    tiles := Tab.set (fun _ => ({} : Tile)) b.tiles s { b.tile s with
      pinned := b.ops.any (fun o => o.pendingOvf.isSome && o.srcs.contains s) } }) b

/-- The configuration mark of a tile after its damage, or after a new configuration. -/
def nextGen (damaged : Bool) (g : Nat) : Nat := if damaged then 2 * (g / 2) + 1 else 2 * (g / 2) + 2

/-- What a `TCFG`, a `TREL` or damage of a slot does beside the status word (R73, R163, R203): beats in flight to it
become stale (the configuration mark moves on), its transfers are pre-empted, the merge unit's values purged, a pending
overflow of it is forgotten and its sources are unpinned (R71; for damage DESIGN CHOICE, log entry 85). -/
def Blk.slotChanged (b : Blk) (s : Nat) (damaged : Bool := false) : Blk :=
  let b1 := b.purgeSlot s
  let b2 := (b1.xfersOf s).foldl (fun b x => b.abortXfer x.tn 1) b1
  let gone (o : Op) : Bool := o.pendingOvf.isSome && o.dests.any (fun d => d.1 == s)
  let srcs := (b2.ops.filter gone).flatMap (fun o => o.srcs)
  let queued (o : Op) : Bool := gone o && b2.replayQ.contains o.id
  let ids := (b2.ops.filter queued).map (fun o => o.id)
  let b3 := { b2 with
    ops := (b2.ops.filter (fun o => !queued o)).map (fun o => if gone o then { o with pendingOvf := none } else o),
    replayQ := b2.replayQ.filter (fun i => !ids.contains i) }
  let b4 := b3.repin srcs
  let t := b4.tile s
  { b4 with tiles := Tab.set (fun _ => ({} : Tile)) b4.tiles s { t with gen := nextGen damaged t.gen } }

/-- A save in progress has begun a tile: it has written its header, before the first of its rows is read (15_states_power.md R370; log
entry 97). -/
def Blk.saveBegun (b : Blk) (s : Nat) : Bool :=
  match b.sr.todo with
  | [] => true
  | (h, _) :: _ => decide (s < h) || (s == h && b.sr.rows.any (fun x => x.1 == s))

/-- A tile that is damaged during a save is saved as state 6, unless its header is written already (R370). -/
def Blk.saveDamaged (b : Blk) (s : Nat) : Blk :=
  if b.sr.phase = 2 && b.sr.isSave && !b.saveBegun s then
    { b with sr := { b.sr with heads := b.sr.heads.map (fun h => if h.1 = s then (h.1, putBytes h.2 1 [6]) else h) } }
  else b

/-- Damage a live tile (R71): content lost or untrusted. -/
def Blk.damage (b : Blk) (s : Nat) : Blk :=
  let t := b.tile s
  if t.inUse then
    ((({ b with seen := b.seen.filter (fun x => x.1 != s) }).setTile 0 s { t with state := .damaged }).slotChanged s true).saveDamaged s
  else b

/-- The slot stands as a `TCFG` of this cycle has configured it: damage of the cycle came first, to the slot as it was before
(03_tile_registers.md R82). -/
def Blk.justConfigured (b : Blk) (s : Nat) : Bool := b.cfgNow.contains s && (b.tile s).state == .empty

/-- Every in-use slot with a row below `ROWS` in group `g` becomes damaged (R110). -/
def Blk.damageGroup (b : Blk) (g : Nat) : Blk :=
  (List.range 128).foldl (fun b s =>
    if (b.tile s).inUse && !b.justConfigured s && (List.range (shRows (b.tile s).shape)).any (fun r => b.groupOf s r == g) then b.damage s
    else b) b

/-- `tick_diff` of two stamps (02_tick.md R52). -/
def tickDiff (x y : Stamp) : Int :=
  let d : Nat := subMod (2 ^ 40) (x.toNat / 2 ^ 24) (y.toNat / 2 ^ 24)
  if 2 ^ 39 ≤ d then (d : Int) - 2 ^ 40 else d

/-- `stamp_before` (R52). -/
def stampBefore (x y : Stamp) : Bool :=
  let t := tickDiff x y
  if t ≠ 0 then decide (t < 0) else decide (x.toNat % 2 ^ 24 < y.toNat % 2 ^ 24)

/-- A received stamp has one of the faults of R51. -/
def Blk.badStamp (b : Blk) (s : Stamp) : Bool :=
  s.getLsbD 0 || decide (b.cfg K.TICK_LEN ≤ bits s.toNat 23 3) || tickDiff s b.stamp == -(2 ^ 39 : Int)

/-- Count an error of a unit in its failure window (16_faults.md R375): banks 0 to 33, ports 64 to 69, merge buffer
128; `addr` is the address of the error, `none` where every error counts. The Bool says that the unit fails. -/
def Blk.window (b : Blk) (unit : Nat) (addr : Option Nat) : Blk × Bool :=
  let w := Tab.get (fun _ => ({} : Window)) b.flt.windows unit
  if b.cfg K.AUTO_RETIRE = 0 || w.failed || (addr.isSome && decide (w.count ≠ 0) && w.last == addr) then (b, false)
  else
    let t := b.tick.tick
    let d : Nat := subMod (2 ^ 40) t w.start
    let d : Int := if 2 ^ 39 ≤ d then (d : Int) - 2 ^ 40 else d
    let w1 : Window := if w.count = 0 || decide ((2 ^ b.cfg K.RETIRE_WINDOW : Nat) ≤ d)
      then { w with start := t, count := 1, last := addr } else { w with count := w.count + 1, last := addr }
    let fails := decide (b.cfg K.RETIRE_UE_COUNT ≤ w1.count)
    ({ b with flt := { b.flt with windows := Tab.set (fun _ => ({} : Window)) b.flt.windows unit { w1 with failed := fails } } },
      fails)

/-- A port internal error (R378): event 0x0308; the port that fails is fenced at the boundary. -/
def Blk.portError (b : Blk) (port : Nat) : Blk :=
  let (b1, f) := (b.event 0x0308 2 port).window (64 + port) none
  if f then { b1 with flt := { b1.flt with failing := b1.flt.failing ++ [port] } } else b1

/-- Write `EP_FAULT_LAST` (05_ports.md R136). -/
def Blk.epFault (b : Blk) (stamp : Stamp) (endpt port kind qen : Nat) : Blk :=
  b.setRec K.EP_FAULT_LAST (leBytes 8 stamp.toNat ++ [BitVec.ofNat 8 endpt, BitVec.ofNat 8 port, BitVec.ofNat 8 kind,
    BitVec.ofNat 8 qen, 0, 0, 0, 0])

/-! ### Power (15_states_power.md) -/

/-- Unit `u` (port p, or group 8 + g) has been made Idle. -/
def Blk.idleBit (b : Blk) (u : Nat) : Bool := if u < 8 then bit b.pwr.portsIdle u else bit b.pwr.groupsIdle (u - 8)

/-- Unit `u` is Active now. -/
def Blk.active (b : Blk) (u : Nat) : Bool :=
  !b.pwr.gated && (b.pwr.sleeps.any (fun w => w.1 == u && decide (b.tick.wall < w.2))
    || (!b.idleBit u && b.pwr.wakes.all (fun w => w.1 != u || decide (w.2 ≤ b.tick.wall))))

/-- Make unit `u` Idle `off` cycles from now, or Active `lat` cycles from now, its wake included (10_descriptors.md R248). An Idle
directive ends a wake in progress; an Active one does not undo the gating of a cycle that an earlier directive set. -/
def Blk.setIdle (b : Blk) (u : Nat) (idle : Bool) (off lat : Nat) : Blk :=
  let set (v i : Nat) : Nat := setBit v i idle
  if b.idleBit u = idle then b
  else { b with pwr := { b.pwr with
    portsIdle := if u < 8 then set b.pwr.portsIdle u else b.pwr.portsIdle,
    groupsIdle := if u < 8 then b.pwr.groupsIdle else set b.pwr.groupsIdle (u - 8),
    wakes := (b.pwr.wakes.filter (fun w => w.1 != u)) ++ (if idle then [] else [(u, b.tick.wall + lat)]),
    sleeps := if idle then (b.pwr.sleeps.filter (fun w => w.1 != u)) ++ (if b.active u then [(u, b.tick.wall + off)] else [])
      else b.pwr.sleeps } }

/-- Record an access fault (R361, R344). -/
def Blk.accessFault (b : Blk) (port group endpt kind slot : Nat) : Blk :=
  (b.count K.PWR_ACCESS_FAULTS).setRec K.PWR_ACCESS_LAST (leBytes 8 b.stamp.toNat ++ [BitVec.ofNat 8 port,
    BitVec.ofNat 8 group, BitVec.ofNat 8 endpt, BitVec.ofNat 8 kind] ++ leBytes 2 slot ++ [0, 0])

/-! ### Entry to Safe (15_states_power.md R355) -/

/-- Every operation in flight ends, Sumac, transfers, buffers and the write paths are empty; outputs go low. The matrix is not touched: a
write transfer of the service window in flight lands. -/
def Blk.stopAll (b : Blk) : Blk :=
  { b with
    sched := {},
    ops := [], writes := b.writes.filter (fun w => w.kind == .sv), outs := [], buses := [], reqs := [], xfers := [], gather := [], gStaged := [],
    gNext := 0, fixed := [], roundAt := [], replayQ := [], replayNow := none, heldCfg := [], refused := none, withdrawn := [],
    seen := [], adderNext := 0, adderEnd := 0,
    tick :=
      { b.tick with
        holdOut := none, netFault := false, tickOutEnd := 0, runAt := none, startDriven := false, frozen := false,
        holdSeen := false, freezeAt := [], resumeAt := [], ended := false, endHold := false } }

/-- `CMD_LAST` (14_dictionary.md R350). -/
def Blk.cmdLast (b : Blk) (sub result code : Nat) : Blk :=
  b.setRec K.CMD_LAST (leBytes 8 b.stamp.toNat ++ [BitVec.ofNat 8 sub, BitVec.ofNat 8 result, 0, 0] ++ leBytes 4 code)

/-- The work of command `sub` ends: result 2, or 3 where it failed, replaces result 0 (R350). -/
def Blk.cmdDone (b : Blk) (sub : Nat) (ok : Bool) : Blk :=
  let r := b.record K.CMD_LAST 16
  if byteAt r 8 = BitVec.ofNat 8 sub ∧ byteAt r 9 = 0 then b.setRec K.CMD_LAST (putBytes r 9 [if ok then 2 else 3]) else b

/-- End a save or restore with `SR_STATUS` `st` (R350). -/
def Blk.endSR (b : Blk) (st : Nat) : Blk :=
  if b.sr.phase = 0 then b
  else
    let own (id : Nat) : Bool := b.ops.any (fun o => o.id == id && o.role == Role.image)
    let b1 := ({ b with
      sr := { b.sr with phase := 0, tables := false, todo := [], op := none, late := false, hand := none },
      mx := { b.mx with waits := b.mx.waits.filter (fun w => !w.engine) },
      xfers := b.xfers.filter (fun x => !own x.op), outs := b.outs.filter (fun x => !own x.op),
      ops := b.ops.filter (fun o => o.role != Role.image) }).setReg K.SR_STATUS st
    if b.sr.cmd then b1.cmdDone (if b.sr.isSave then 5 else 6) (st == 3) else b1

/-- Enter Safe for the event `code`; from Boot or Off the event is only recorded (R353), and in Safe the first cause
stays (16_faults.md R392). -/
def Blk.enterSafe (b : Blk) (code : Nat) : Blk :=
  match b.lc with
  | .off => b
  | .boot => b
  | .safe => b
  | _ =>
    let b1 := ((b.stopAll.endSR 7).setReg K.SAFE_CAUSE code).setReg K.SYNC_STATE (setBit (b.reg K.SYNC_STATE) 2 false)
    { b1 with lc := .safe, sems := [], pins := { b1.pins with stopPend := 0 },
              sched := { b1.sched with on := false } }

/-- An event that enters Safe. -/
def Blk.safeEvent (b : Blk) (code cls unit : Nat) : Blk :=
  (b.eventWith code cls unit (if b.lc = .boot ∨ b.lc = .off then 0 else 128)).enterSafe code

/-- A cell-out event (R380): entered with class 3, then Safe. -/
def Blk.cellOut (b : Blk) (code unit : Nat) : Blk := b.safeEvent code 3 unit

/-! ### Retired banks, half mode, the image they invalidate (04_banks.md R110, R111; 16_faults.md R376, R377) -/

/-- A valid image no longer matches what validation checked (10_descriptors.md R263, R264). -/
def Blk.invalidateImage (b : Blk) : Blk :=
  let b1 := if b.reg K.IMAGE_STATE = 2 then b.setReg K.IMAGE_STATE 4 else b
  if b1.reg K.IMAGE_STATE = 1 then { b1 with pins := { b1.pins with invalidate := true } } else b1

/-- The lowest spare that serves no logical bank and has not left the pool. -/
def Blk.freeSpare (b : Blk) : Option Nat :=
  [32, 33].find? (fun p => !b.retired p && (List.range 32).all (fun l => b.bankMap l != p))

/-- Every in-use tile of some slots becomes damaged. -/
def Blk.damageAll (b : Blk) (ss : List Nat) : Blk := ss.foldl (fun b s => b.damage s) b

/-- A slot becomes dead without a release: its banks or its context are gone. -/
def Blk.killSlot (b : Blk) (s : Nat) : Blk :=
  let t := b.tile s
  let t1 := { t with state := .empty, inUse := false, rowValid := 0, writers := 0 }
  let b1 := b.setTile 0 s { t1 with pinned := false, scrubPend := false }
  { b1 with scrubRow := Tab.set (fun _ => 0) b1.scrubRow s 0 }.slotChanged s

/-- Half groups H0 to H3: the four lowest intact groups. -/
def Blk.selectHalf (b : Blk) : Blk := b.setReg K.HALF_GROUPS (leVal ((b.intactGroups.take 4).map (fun g => BitVec.ofNat 8 g)))

/-- Entry to half mode (R111). -/
def Blk.enterHalf (b : Blk) : Blk :=
  let n := b.intactGroups.length
  if n < 4 then b.cellOut 0x0207 n
  else
    let b1 := ((List.range 64).map (fun i => 64 + i)).foldl (fun b s => b.killSlot s) b
    let b2 := b1.damageAll (List.range 64)
    (((b2.setReg K.HALF_MODE 1).selectHalf).event 0x0205 2 n).invalidateImage

/-- In half mode, half groups are selected again when the bank's group was one of them (R377). -/
def Blk.reselect (b : Blk) (p g : Nat) : Blk :=
  let n := b.intactGroups.length
  if n < 4 then b.cellOut 0x0207 n
  else if (List.range 4).any (fun h => bits (b.reg K.HALF_GROUPS) (8 * h + 7) (8 * h) == g) then
    ((b.damageAll (List.range 128)).selectHalf).event 0x0206 2 p
  else b

/-- Step 3 for one retired bank: spare remap, half mode, or a new choice of half groups. -/
def Blk.takeBank (b : Blk) (p : Nat) : Blk :=
  match (List.range 32).find? (fun l => b.bankMap l == p) with
  | none => b
  | some l =>
    if b.half then b.reselect p (l / 4)
    else match b.freeSpare with
      | some q => (b.setRec K.BANK_MAP (putBytes b.bankMapBytes l [BitVec.ofNat 8 q])).setReg K.SPARES_FREE (b.reg K.SPARES_FREE - 1)
      | none => b.enterHalf

/-- The boundary step of every retired bank, the lower physical bank first (R392). -/
def Blk.takeBanks (b : Blk) : Blk :=
  let ps := (List.range 34).filter (fun p => b.flt.retiring.contains p)
  ps.foldl (fun b p => b.takeBank p) { b with flt := { b.flt with retiring := [] } }

/-- Retire a physical bank: steps 1 and 2 of R110, event 0x0203; the boundary takes the rest, or the next cycle when no
tick runs (14_dictionary.md R348). -/
def Blk.retire (b : Blk) (p : Nat) : Blk :=
  let b1 := (b.setReg K.BANKS_RETIRED (Nat.lor (b.reg K.BANKS_RETIRED) (2 ^ p))).eventWith 0x0203 2 p (if b.ticking then 0 else 64)
  let b2 := { b1 with flt := { b1.flt with retiring := b1.flt.retiring ++ [p] } }
  let b3 := match (List.range 32).find? (fun l => b.bankMap l == p) with
    | some l => b2.damageGroup (l / 4)
    | none => b2
  if b3.ticking then b3 else b3.takeBanks

/-- A retirement of bank `p` is refused: already retired, or a spare that serves no logical bank (R110). -/
def Blk.retireRefused (b : Blk) (p : Nat) : Bool :=
  b.retired p || !(List.range 32).any (fun l => b.bankMap l == p)

/-- An uncorrectable error of physical bank `p` at `addr`: the window, and the retirement it may bring (R376). -/
def Blk.bankUE (b : Blk) (p addr : Nat) : Blk :=
  let (b1, f) := b.window p (some addr)
  if f && !b1.retireRefused p then (b1.noteSet (600 + p)).retire p else b1

/-! ### Events and trace records of one cycle (14_dictionary.md R341; 16_faults.md R390) -/

/-- The last `n` positions of a ring of `size` places that comes to write at `next`, the oldest first. -/
def lastPlaces (size next n : Nat) : List Nat := (List.range n).map (fun i => (next + size - n + i) % size)

/-- The order of an error history entry among those of its cycle: its code, then its unit (04_banks.md R107; R390). -/
def eventKey (e : List Byte) : Nat := 256 * fieldAt e 0 2 + (byteAt e 3).toNat

/-- The error history entries made since `a`, and their emergency frames, in ascending code and unit. -/
def orderEvents (a b : Blk) : Blk :=
  let k := subMod (2 ^ 32) b.flt.ehSeq a.flt.ehSeq
  let ps := (lastPlaces 16 (b.reg K.EH_NEXT - 1) k).map (fun i => i + 1)
  let es := ps.map (fun p => (p, b.record (K.EH_COUNT + p) 16))
  let sorted := sortBy (fun e => eventKey e.2) es
  if k < 2 || 16 < k || sorted = es then b
  else
    let b1 := (ps.zip sorted).foldl (fun b x =>
      b.setRec (K.EH_COUNT + x.1) (putBytes x.2.2 4 (slice (((es.find? (fun e => e.1 == x.1)).getD (0, [])).2) 4 4))) b
    let old := b.ring.emcy.take a.ring.emcy.length
    let place (f : List Byte) : Nat := sorted.findIdx (fun e => e.1 == (byteAt f 6).toNat)
    let frames := (sortBy place (b.ring.emcy.drop a.ring.emcy.length)).map (fun f =>
      let g := putBytes (f.take (f.length - 2)) 6 [BitVec.ofNat 8 (ps.getD (place f) 0)]
      g ++ leBytes 2 (crc16 g))
    { b1 with ring := { b1.ring with emcy := old ++ frames } }

/-- The order of a trace record among those of its cycle: its kind, then its unit. -/
def traceKey (r : List Byte) : Nat :=
  let kind := (byteAt r 8).toNat
  let unit := match kind with
    | 1 => eventKey (slice r 16 4)
    | 7 => 16 * (byteAt r 16).toNat + (byteAt r 17).toNat
    | 8 => 16 * (byteAt r 16).toNat + (byteAt r 17).toNat
    | 6 => fieldAt r 16 2
    | _ => if 9 ≤ kind then fieldAt r 16 2 else 0
  2 ^ 24 * kind + unit

/-- The last `n` trace records written in this cycle, in ascending kind and unit; their sequence numbers stay in place, and an event's
record keeps the number of its entry. -/
def orderTraceFrom (n : Nat) (b : Blk) : Blk :=
  let ps := ((b.flt.trOld.take n).map (fun x => x.1)).reverse
  let rs := ps.map (fun p => Tab.get (fun _ => []) b.trace p)
  let sorted := sortBy traceKey rs
  if n < 2 || 8192 < n || sorted = rs then b
  else
    let ehs := (rs.filter (fun r => byteAt r 8 == 1)).map (fun r => slice r 20 4)
    let write (x : Nat × List Byte × List Byte) (b : Blk) : Blk :=
      let r := putBytes x.2.2 12 (slice x.2.1 12 4)
      { b with trace := Tab.set (fun _ => []) b.trace x.1 (if byteAt r 8 = 1 then putBytes r 20 (ehs.getD (sorted.findIdx (fun y => y == x.2.2)) []) else r) }
    (ps.zip (rs.zip sorted)).foldl (fun b x => write x b) b

/-- The trace records made since `a`. -/
def orderTrace (a b : Blk) : Blk := orderTraceFrom (b.flt.trOld.length - a.flt.trOld.length) b

/-- What one command enters, in the order of one cycle. -/
def orderBlk (a b : Blk) : Blk := orderTrace a (orderEvents a b)

/-- A command's outcome with its events and trace records in order. -/
def State.ordered (s t : State) : State := { t with blk := orderBlk s.blk t.blk }

/-- All entries of a cycle in ascending code, those of one code in ascending unit (R107, R341), and its emergency frames in the same
order, with the error register of the next cycle (13_evien.md R324). -/
def Blk.closeEvents (b : Blk) : Blk :=
  let es := sortBy eventKey b.flt.today
  let k := es.length
  if k = 0 then b
  else
    let place (i : Nat) : Nat := (b.reg K.EH_NEXT - 1 + 16 * k + i - k) % 16 + 1
    let seq (i : Nat) : Nat := (b.flt.ehSeq + 2 ^ 32 + i + 1 - k) % 2 ^ 32
    let xs := (List.range k).zip es
    let b1 := (xs.drop (k - 16)).foldl (fun b x => b.setRec (K.EH_COUNT + place x.1) (putBytes x.2 4 (leBytes 4 (seq x.1)))) b
    let new := b.ring.emcy.drop b.flt.emcyMark
    let frames := ((xs.filter (fun x => byteAt x.2 2 != 0)).take new.length).map (fun x =>
      mkFrame (byteAt (new.headD []) 0) 6 0 0x1003 (place x.1)
        (slice x.2 0 2 ++ [BitVec.ofNat 8 b.errorReg, byteAt x.2 2] ++ slice x.2 8 4))
    { b1 with ring := { b1.ring with emcy := b.ring.emcy.take b.flt.emcyMark ++ frames } }

/-- A cycle ends: what it entered is in order. -/
def Blk.endCycle (b : Blk) : Blk := orderTraceFrom b.flt.trOld.length b.closeEvents

/-- A new cycle has entered nothing yet. -/
def Blk.startCycle (b : Blk) : Blk :=
  { b with
    flt :=
      { b.flt with
        today := [], emcyMark := b.ring.emcy.length, trOld := [], trDrop := [] },
    mx := { b.mx with freed := [] }, seen := [], eccSeen := [], cfgNow := [], raised := [], aniseNow := [] }

/-- Change everything but the memories, in one cycle. -/
def State.cyc (s : State) (f : Store → Blk → Blk) : State := s.ordered (s.upd f)

end Sys2Proof.Machine
end

