-- ==== Sys2Proof/Machine/Flags.lean ====
section
/-! DEFINITION. The parity of a beat (01_boundary.md R23) and the check of a received one (05_ports.md R132). -/

namespace Sys2Proof.Machine

/-- The odd parity bit of some bytes. -/
def oddParity (bs : List Byte) : Bool := popBytes bs % 2 == 0

/-- The bytes that parity bit `l` covers: data lanes 0 to 31, the sideband in four parts, the stamp. -/
def parBytes (data sb : List Byte) (stamp : Stamp) (l : Nat) : List Byte :=
  if l < 32 then slice data (32 * l) 32 else if l < 36 then slice sb (32 * (l - 32)) 32 else leBytes 8 stamp.toNat

/-- `PAR` of a beat. -/
def parOf (data sb : List Byte) (stamp : Stamp) : BitVec 37 :=
  BitVec.ofNat 37 ((List.range 37).foldl (fun a l => if oddParity (parBytes data sb stamp l) then a + 2 ^ l else a) 0)

/-- A beat as Doluo drives it. -/
def mkBeat (data sb : List Byte) (stamp : Stamp) (qen : Nat) : Beat :=
  ⟨data, sb, stamp, parOf data sb stamp, BitVec.ofNat 4 qen⟩

/-- Parity bit `l` of a received beat is wrong. -/
def parBad (b : Beat) (l : Nat) : Bool := b.par.getLsbD l != oddParity (parBytes b.data b.sb b.stamp l)

/-- `PAR` error on the lanes of a quarter, on the sideband, on the stamp. -/
def dataBad (b : Beat) (q : Nat) : Bool := (List.range 8).any (fun i => parBad b (8 * q + i))
def sbBad (b : Beat) : Bool := (List.range 4).any (fun i => parBad b (32 + i))
def stampBad (b : Beat) : Bool := parBad b 36

/-- The enabled quarters of `eqs` that carry a parity error. -/
def badQuarters (b : Beat) (eqs : List Nat) : List Nat :=
  eqs.filter (fun q => b.qen.getLsbD q && dataBad b q)

/-- Data with the quarters that are not taken, or not enabled, as zero. -/
def takenData (b : Beat) (eqs : List Nat) : List Byte :=
  (List.range 4).flatMap (fun q =>
    if eqs.contains q && b.qen.getLsbD q then slice b.data (256 * q) 256 else List.replicate 256 0)

/-- `POISON` of a received sideband. -/
def sbPoison (sb : List Byte) : Bool := (byteAt sb 82).getLsbD 1

/-- A sideband with `POISON` set. -/
def poisonSb (sb : List Byte) : List Byte := putBytes sb 82 [byteAt sb 82 ||| 2]

/-- A set of quarters as `QEN` bits. -/
def qenOf (qs : List Nat) : Nat := qs.foldl (fun a q => Nat.lor a (2 ^ q)) 0

end Sys2Proof.Machine
end

