-- ==== Sys2Proof/Machine/Operands.lean ====
section
/-! DEFINITION. The accesses of an operation: rows, quarters and cycles (05_ports.md R115 to R118, R394; 04_banks.md R101 to
R105), and the formats an endpoint takes (R121). -/

namespace Sys2Proof.Machine

/-- Opcodes that read a tile through a port, and those that write one. -/
def readsTile (opc : Nat) : Bool := [0x11, 0x20, 0x21, 0x30, 0x40, 0x41, 0x50, 0x60].contains opc
def tileCommit (opc : Nat) : Bool := [0x22, 0x32, 0x41].contains opc
def isLoop (opc : Nat) : Bool := opc == 0x40 || opc == 0x41
def writesTile (opc : Nat) : Bool := [0x10, 0x22, 0x31, 0x32, 0x33, 0x40, 0x41, 0x51, 0x61].contains opc

/-- The shape by which a read proceeds: that of a dead slot without a usable one is 1,024-byte rows of a 1-byte format
(R74). -/
def Blk.readShape (b : Blk) (s : Nat) (transposed : Bool) : Nat :=
  let t := b.tile s
  let w := t.shape
  let unusable := shUnits w = 0 || (transposed && fmtBits (shFmt w) ≠ 8 && fmtBits (shFmt w) ≠ 16)
  if !t.inUse && unusable then 0x32040 else w

/-- Accesses of one row. -/
def perRow (shape : Nat) (split : Bool) : Nat := if split then max 1 (shQuarters shape) else 1

/-- Strips of a transposed feed (R102). -/
def stripCount (shape rows : Nat) : Nat := rows / 32 * shQuarters shape

/-- Accesses of an operation of shape `shape` (R116, R104). -/
def accessTotal (d : Desc) (shape : Nat) : Nat :=
  if d.opc = 0x21 then 8 * stripCount shape d.nrows else d.nrows * perRow shape d.qsplit

/-- The cycle of access `n`, counted from access 0. -/
def accessOffset (d : Desc) (n : Nat) : Nat := if d.opc = 0x21 then 16 * (n / 8) + 2 * (n % 8) else n * d.cadence

/-- Row and quarters of access `n` (R116). -/
def accessRow (d : Desc) (shape n : Nat) : Nat := d.start + n / perRow shape d.qsplit
def accessQuarters (d : Desc) (shape n : Nat) : List Nat :=
  if d.qsplit then [n % perRow shape true] else List.range (shQuarters shape)

/-- The access ends its row. -/
def endsRow (d : Desc) (shape n : Nat) : Bool := n % perRow shape d.qsplit + 1 == perRow shape d.qsplit

/-- `QTR` of an access (R117). -/
def accessQtr (d : Desc) (shape n : Nat) : Nat := if d.qsplit then n % perRow shape true else 0

/-- Stamp of access `n` of a scheduled operation (R50). -/
def Op.schedStamp (o : Op) (shape : Nat) : Stamp :=
  mkStamp o.tick (o.base + accessOffset o.d o.n) (if o.d.opc = 0x21 then 0 else accessQtr o.d shape o.n)

/-- Row quarters that hold elements `a` to `a + n - 1` of format `f`. -/
def elemQuarters (f a n : Nat) : List Nat :=
  if n = 0 then [] else (List.range 4).filter (fun q => decide (a * fmtBits f / 2048 ≤ q) && decide (q ≤ (a + n - 1) * fmtBits f / 2048))

/-- Elements of a converting write's row that access `n` carries: first and count (R394). -/
def convElemsOf (d : Desc) (shape n : Nat) : Nat × Nat :=
  let f := shFmt shape
  let all := elemsPerRow f (shRB shape)
  if d.qsplit && decide (1 < perRow shape true) then
    let q := n % perRow shape true
    let per := 2048 / fmtBits f
    (q * per, min per (all - q * per))
  else (0, all)

/-- Beat quarters that hold those elements in an FP32 or INT32 beat. -/
def convBeatQuarters (d : Desc) (shape n : Nat) : List Nat :=
  let (a, k) := convElemsOf d shape n
  elemQuarters 0 a k

/-- Elements of a row of a converting loop write that are complete once quarter `q` has been read: all of them with the last
quarter; before, those whose bits have all been read, for an MX destination in whole blocks (log entry 14). -/
def loopElems (src dst q : Nat) : Nat :=
  let all := elemsPerRow (shFmt src) (shRB src)
  if perRow src true ≤ q + 1 then all
  else
    let n := min all (2048 * (q + 1) / fmtBits (shFmt src))
    if isMX (shFmt dst) then n / 32 * 32 else n

/-- The elements, first and end, that the read of quarter `q` of a row adds to a converting loop write; the whole row in full mode. -/
def loopRange (src dst : Nat) (split : Bool) (q : Nat) : Nat × Nat :=
  if !split then (0, elemsPerRow (shFmt src) (shRB src))
  else (if q = 0 then 0 else loopElems src dst (q - 1), loopElems src dst q)

/-- The quarters of the destination row that hold them. -/
def loopQuarters (src dst : Nat) (split : Bool) (q : Nat) : List Nat :=
  let r := loopRange src dst split q
  if !split then List.range (shQuarters dst) else elemQuarters (shFmt dst) r.1 (r.2 - r.1)

/-- A write of format `f` by this opcode passes the conversion stage (R211). -/
def converts (opc f : Nat) : Bool := (opc == 0x22 || opc == 0x32 || opc == 0x41) && decide (f ≤ 12)

/-! ### Endpoints (R118, R121) -/

/-- The `EP_ELEMS` entry of an endpoint with a row check. -/
def epElemsKey (e : Nat) : Option Nat :=
  match e with
  | 0 => some K.EP_ELEMS_DE_A | 1 => some K.EP_ELEMS_DE_W | 2 => some K.EP_ELEMS_DE_O | 4 => some K.EP_ELEMS_SE_M
  | 5 => some K.EP_ELEMS_VU_X | 6 => some K.EP_ELEMS_VU_Y | 7 => some K.EP_ELEMS_VU_Z | _ => none

/-- Formats accepted by endpoint `e` for opcode `opc` (R121). -/
def epFormats (e opc : Nat) : List Nat :=
  if e = 0 || e = 1 then (List.range 12).filter (fun f => f ≠ 0)
  else if e = 2 then List.range 13
  else if e = 4 && opc = 0x32 then List.range 11
  else List.range 15

/-- The row length check applies (R121): not to `TFEEDT`, `TROUTE` and `TRETURN`. -/
def epRowCheck (e opc : Nat) : Bool :=
  (epElemsKey e).isSome && opc ≠ 0x21 && opc ≠ 0x31 && opc ≠ 0x33

/-- Row length in bytes of `n` elements of format `f` (R121). -/
def elemsBytes (f n : Nat) : Nat := if fmtBits f = 6 then n * 96 / 128 else n * fmtBits f / 8

/-- An endpoint is out: disabled, or `SE-M` with the merge unit out of service (R133, R379). -/
def Blk.epOut (b : Blk) (e : Nat) : Bool := bit b.epOff e || (e == 4 && bit (b.reg K.UNITS_OUT) 0)

/-- The ports of an endpoint that has a bus (R118). -/
def endptPorts (e : Nat) : List Nat :=
  match e with
  | 0 => [0, 1] | 1 => [2, 3] | 2 => [4] | 3 => [1, 2, 3] | 4 => [5] | 5 => [0, 2] | 6 => [1, 3] | 7 => [4, 5] | 8 => [5] | 9 => [3]
  | 10 => [4] | 11 => [2] | _ => []

/-- No port of the endpoint's bus is Active: `VALID` and `READY` stay low (15_states_power.md R359; log entry 83). -/
def Blk.busDark (b : Blk) (e : Nat) : Bool := !(endptPorts e).isEmpty && (endptPorts e).all (fun p => !b.active p)

/-- The endpoint's bus carries no beat of its own accord: the endpoint is out, or its bus is dark. -/
def Blk.busLow (b : Blk) (e : Nat) : Bool := b.epOut e || b.busDark e

def Blk.fenced (b : Blk) (p : Nat) : Bool := bit (b.reg K.PORT_FENCED) p

end Sys2Proof.Machine
end

