-- ==== Sys2Proof/Machine/Image.lean ====
section
/-! DEFINITION. The schedule image in program RAM (10_descriptors.md): the decoder of descriptors, the tick programs, and the
five stages of load-time validation. -/

namespace Sys2Proof.Machine

/-! ### Descriptors (R241 to R246) -/

/-- Decode 32 bytes as a descriptor. -/
def decodeDesc (bs : List Byte) : Desc :=
  let w0 := fieldAt bs 0 4
  let w1 := fieldAt bs 4 4
  let opc := bits w0 7 0
  let f (a n : Nat) : Nat := fieldAt bs a n
  let slot := f 12 2 % 512
  let d : Desc :=
    { opc := opc, cadence := bits w0 16 12, qsplit := bit w0 17, opf := bit w0 18, port := bits w0 27 24,
      endpt := bits w0 31 28, slotCycle := bits w1 20 0, req := bits w1 24 21, deadline := bits (f 8 4) 20 0 }
  match opc with
  | 0x01 => { d with slot := slot, epoch := f 14 2, shape := f 16 4, scaleSlot := f 20 2 % 4096 }
  | 0x02 => { d with slot := slot }
  | 0x03 => { d with slot := slot, nslots := f 14 1 }
  | 0x10 => { d with slot := slot, start := f 14 1, nrows := f 15 1, base := f 16 8, stride := toSigned 32 (f 24 4) }
  | 0x11 => { d with slot := slot, start := f 14 1, nrows := f 15 1, base := f 16 8, stride := toSigned 32 (f 24 4) }
  | 0x20 => { d with slot := slot, start := f 14 1, nrows := f 15 1, rgrp := f 16 2 }
  | 0x21 => { d with slot := slot, start := f 14 1, nrows := f 15 1, rgrp := f 16 2 }
  | 0x22 => { d with slot := slot, start := f 14 1, nrows := f 15 1, rgrp := f 16 2 }
  | 0x30 => { d with slot := slot, ifirst := f 14 2, nidx := f 16 2, srcBase := f 18 2 % 512, srcTiles := f 20 1, opid := f 22 2 }
  | 0x31 => { d with slot := slot, nexp := f 14 1, bktTiles := f 15 1, cap := f 16 2, resBase := f 18 2 % 512,
                     resTiles := f 20 1, opid := f 22 2 }
  | 0x32 => { d with slot := slot, start := f 14 1, nrows := f 15 1, accPort := f 16 1 % 4, opid := f 22 2 }
  | 0x33 => { d with slot := slot, dstTiles := f 14 1, choices := f 15 1 % 32, opid := f 22 2 }
  | 0x40 => { d with slot := slot, start := f 14 1, nrows := f 15 1, dst := f 16 2 % 512, wport := f 18 1 % 16 }
  | 0x41 => { d with slot := slot, start := f 14 1, nrows := f 15 1, dst := f 16 2 % 512, wport := f 18 1 % 16 }
  | 0x50 => { d with slot := slot, start := f 14 1, nrows := f 15 1, chan := f 16 1 }
  | 0x51 => { d with slot := slot, start := f 14 1, nrows := f 15 1, chan := f 16 1 }
  | 0x60 => { d with ctx := f 12 1 % 2, base := f 16 8, limit := f 24 4 }
  | 0x61 => { d with ctx := f 12 1 % 2, base := f 16 8, limit := f 24 4 }
  | 0x70 => { d with pstate := f 12 1 % 4, pmask := f 14 1 % 64, gmask := f 15 1 }
  | 0x71 => { d with markId := f 12 4 }
  | _ => d

/-- The opcodes of R245, and how their operand bytes 12 to 31 may be set (R246). -/
def operandMask (opc : Nat) : Option (List Byte) :=
  let slotM : List Byte := [0xFF, 0x01]
  let rows : List Byte := slotM ++ [0xFF, 0xFF]
  let m (bs : List Byte) : Option (List Byte) := some (padTo bs 20)
  match opc with
  | 0x01 => m (slotM ++ List.replicate 6 0xFF ++ [0xFF, 0x0F])
  | 0x02 => m slotM
  | 0x03 => m (slotM ++ [0xFF])
  | 0x10 => m (rows ++ List.replicate 12 0xFF)
  | 0x11 => m (rows ++ List.replicate 12 0xFF)
  | 0x20 => m (rows ++ [0xFF, 0xFF])
  | 0x21 => m (rows ++ [0xFF, 0xFF])
  | 0x22 => m (rows ++ [0xFF, 0xFF])
  | 0x30 => m (slotM ++ [0xFF, 0xFF, 0xFF, 0xFF] ++ slotM ++ [0xFF, 0, 0xFF, 0xFF])
  | 0x31 => m (slotM ++ [0xFF, 0xFF, 0xFF, 0xFF] ++ slotM ++ [0xFF, 0, 0xFF, 0xFF])
  | 0x32 => m (rows ++ [0x03, 0, 0, 0, 0, 0, 0xFF, 0xFF])
  | 0x33 => m (slotM ++ [0xFF, 0x1F, 0, 0, 0, 0, 0, 0, 0xFF, 0xFF])
  | 0x40 => m (rows ++ slotM ++ [0x0F])
  | 0x41 => m (rows ++ slotM ++ [0x0F])
  | 0x50 => m (rows ++ [0xFF])
  | 0x51 => m (rows ++ [0xFF])
  | 0x60 => m ([1, 0, 0, 0] ++ List.replicate 12 0xFF)
  | 0x61 => m ([1, 0, 0, 0] ++ List.replicate 12 0xFF)
  | 0x70 => m [0x03, 0, 0x3F, 0xFF]
  | 0x71 => m [0xFF, 0xFF, 0xFF, 0xFF]
  | 0x7F => m []
  | _ => none

/-- Opcodes with an `OPF`, and the non-port operations (R244, R246). -/
def hasOpf (opc : Nat) : Bool := [0x01, 0x10, 0x11, 0x30, 0x31, 0x32, 0x60, 0x61].contains opc
def nonPort (opc : Nat) : Bool := [0x01, 0x02, 0x03, 0x70, 0x71, 0x7F].contains opc

/-- The marker of an open descriptor. -/
def openCycle : Nat := 0x1FFFFF
def isOpenDesc (d : Desc) : Bool := d.slotCycle == openCycle

/-- A scheduled descriptor; `TEND` is none (R250). -/
def isScheduled (d : Desc) : Bool := !isOpenDesc d && d.opc != 0x7F

/-- Every slot that a descriptor names (R260). -/
def descSlots (d : Desc) : List Nat :=
  let run (a n : Nat) : List Nat := (List.range n).map (fun i => a + i)
  match d.opc with
  | 0x03 => d.slot :: run d.slot d.nslots
  | 0x30 => d.slot :: run d.srcBase d.srcTiles
  | 0x31 => run d.slot (d.nexp * d.bktTiles) ++ run d.resBase d.resTiles
  | 0x33 => run d.slot d.dstTiles
  | 0x40 => [d.slot, d.dst]
  | 0x41 => [d.slot, d.dst]
  | 0x60 => []
  | 0x61 => []
  | 0x70 => []
  | 0x71 => []
  | 0x7F => []
  | _ => [d.slot]

/-- Ports a descriptor uses (R260). -/
def descPorts (d : Desc) : Nat :=
  if nonPort d.opc then 0
  else Nat.lor (2 ^ d.port) (Nat.lor (if isLoop d.opc then 2 ^ d.wport else 0) (if d.opc = 0x32 && d.opf then 2 ^ d.accPort else 0))

/-! ### The image region (R252 to R256) -/

/-- Bytes of the image: the upper half of program RAM. -/
def Store.img (st : Store) (a n : Nat) : List Byte := Mem.read st.prog (131072 + a) n
def Store.imgVal (st : Store) (a n : Nat) : Nat := leVal (st.img a n)

/-- Programs of the image, and the offset and length of program `p`'s list. -/
def Store.progs (st : Store) : Nat := st.imgVal 22 2
def Store.progOff (st : Store) (p : Nat) : Nat := st.imgVal (st.imgVal 24 4 + 8 * p) 4
def Store.progLen (st : Store) (p : Nat) : Nat := st.imgVal (st.imgVal 24 4 + 8 * p + 4) 2

/-- Descriptor `i` of program `p`. -/
def Store.desc (st : Store) (p i : Nat) : Option Desc :=
  if i < st.progLen p then some (decodeDesc (st.img (st.progOff p + 32 * i) 32)) else none

/-- The descriptors of program `p`, with their indices. -/
def Store.program (st : Store) (p : Nat) : List (Nat × Desc) :=
  (List.range (st.progLen p)).map (fun i => (i, decodeDesc (st.img (st.progOff p + 32 * i) 32)))

/-! ### The accesses of a scheduled descriptor -/

/-- One access as the load check sees it: port cycle, port, quarter positions, bank cycle, the rows it claims (slot, row,
claim number), arrival at an endpoint bus, and whether it writes. -/
structure Acc where
  idx   : Nat
  cyc   : Nat
  port  : Nat
  span  : Nat := 1
  qs    : List Nat
  bank  : Nat
  rows  : List (Nat × Nat × Nat)
  bus   : Option (Nat × Nat) := none
  write : Bool := false
  deriving DecidableEq, Repr

/-- The claims of rows of slot `s` (R91). Every row is taken to exist (R93); a pad row claims nothing when it is read. -/
def Blk.claims (b : Blk) (shape s : Nat) (rs : List Nat) (write : Bool := false) : List (Nat × Nat × Nat) :=
  (rs.filter (fun r => write || decide (r < shRows shape) || decide (shPad shape ≤ r))).map (fun r => (s, r, b.claimOf s r))

/-- The accesses of a scheduled descriptor moved by `shift`; `sh` gives the shape of a slot. -/
def accessesOf (b : Blk) (sh : Nat → Nat) (i : Nat) (d : Desc) (shift : Nat) : List Acc :=
  let c := d.slotCycle + shift
  let w := sh d.slot
  let n := accessTotal d w
  if d.opc = 0x20 then
    (List.range n).map (fun k =>
      let t := c + accessOffset d k
      { idx := i, cyc := t, port := d.port, qs := accessQuarters d w k, bank := t,
        rows := b.claims w d.slot [accessRow d w k], bus := some (d.endpt, t + 6) })
  else if d.opc = 0x21 then
    let nq := max 1 (shQuarters w)
    (List.range n).map (fun k =>
      let t := c + accessOffset d k
      let strip := k / 8
      let r0 := d.start + 32 * (strip / nq) + 4 * (k % 8)
      let lanes := min 8 (shUnits w - 8 * (strip % nq))
      let beats := if fmtBits (shFmt w) = 16 then 2 * ((lanes + 1) / 2) else lanes
      { idx := i, cyc := t, port := d.port, span := 2, qs := [0, 1, 2, 3], bank := t,
        rows := b.claims w d.slot [r0, r0 + 1, r0 + 2, r0 + 3],
        bus := if k % 8 < beats then some (d.endpt, t + 22) else none })
  else if d.opc = 0x22 then
    (List.range n).map (fun k =>
      let t := c + accessOffset d k
      { idx := i, cyc := t, port := d.port, qs := accessQuarters d w k, bank := t + 9,
        rows := b.claims w d.slot [accessRow d w k] true, bus := some (d.endpt, t), write := true })
  else if isLoop d.opc then
    let v := sh d.dst
    (List.range n).flatMap (fun k =>
      let t := c + accessOffset d k
      let row := accessRow d w k
      let conv := d.opc == 0x41 && converts 0x41 (shFmt v)
      let qs := if conv then loopQuarters w v d.qsplit (k % perRow w d.qsplit)
        else if d.qsplit then (accessQuarters d w k).filter (fun q => decide (q < shQuarters v)) else List.range (shQuarters v)
      let rd : Acc := { idx := i, cyc := t, port := d.port, qs := accessQuarters d w k, bank := t,
                        rows := b.claims w d.slot [row] }
      let wr : Acc := { idx := i, cyc := t + 5, port := d.wport, qs := qs, bank := t + 14,
                        rows := b.claims v d.dst [row] true, write := true }
      if qs = [] && !conv then [rd] else [rd, wr])
  else []

/-- The last cycle of a descriptor's events: bank cycles, arrivals and the commit (R219). -/
def lastEvent (b : Blk) (sh : Nat → Nat) (d : Desc) : Nat :=
  (accessesOf b sh 0 d 0).foldl (fun m a => max m (max a.bank (match a.bus with | some (_, t) => t | none => 0))) d.slotCycle

/-- The replay group of a descriptor in a program: members with their indices (R219). -/
def replayMembers (prog : List (Nat × Desc)) (i : Nat) (d : Desc) : List (Nat × Desc) :=
  if d.opc = 0x41 then [(i, d)]
  else if d.rgrp = 0 then []
  else prog.filter (fun x => !isOpenDesc x.2 && [0x20, 0x21, 0x22].contains x.2.opc && x.2.rgrp == d.rgrp)

/-- The first slot cycle of a group, and its span L. -/
def groupSpan (b : Blk) (sh : Nat → Nat) (m : List (Nat × Desc)) : Nat × Nat :=
  let first := m.foldl (fun a x => min a x.2.slotCycle) openCycle
  (first, m.foldl (fun a x => max a (lastEvent b sh x.2)) 0 - first + 1)

/-! ### Validation (R257 to R262) -/

/-- What a failed validation reports (R262). -/
structure Fail where
  result : Nat
  code   : Nat
  prog   : Nat := 0xFFFF
  didx   : Nat := 0xFFFF
  didx2  : Nat := 0xFFFF
  cycle  : Nat := 0
  need   : Nat := 0
  have'  : Nat := 0
  res    : Nat := 0
  unit   : Nat := 0
  nfail  : Nat := 1
  ioff   : Nat := 0
  deriving DecidableEq, Repr

/-- The bytes of `LOAD_REPORT`. -/
def Fail.bytes (f : Fail) : List Byte :=
  [BitVec.ofNat 8 f.result, BitVec.ofNat 8 f.code] ++ leBytes 2 f.prog ++ leBytes 2 f.didx ++ leBytes 2 f.didx2
  ++ leBytes 4 f.cycle ++ leBytes 4 f.need ++ leBytes 4 f.have' ++ [BitVec.ofNat 8 f.res, BitVec.ofNat 8 f.unit]
  ++ leBytes 2 f.nfail ++ leBytes 4 f.ioff ++ [0, 0, 0, 0]

/-- Stage 1: the container (R252 to R255). `lo`, `hi`: bytes written to the two halves. -/
def containerFail (st : Store) (lo hi : Nat) : Option Fail :=
  let v := st.imgVal
  let len := v 8 4
  let fail (c o : Nat) : Option Fail := some { result := 1, code := c, ioff := o }
  if len < 320 || 131072 < len || len % 32 ≠ 0 || lo < min len 65536 || hi < len - 65536 then fail 1 8
  else if v 0 4 ≠ 0x4F554C44 then fail 2 0
  else if crc32 (putBytes (st.img 0 len) 28 [0, 0, 0, 0]) ≠ v 28 4 then fail 3 28
  else
    let p := v 22 2
    let pt := v 24 4
    let tests : List (Nat × Bool) :=
      [(4, decide (256 * v 4 1 + v 5 1 ≤ 256 * v 6 1 + v 7 1)), (12, decide (17000 ≤ v 12 4) && decide (v 12 4 ≤ 1700000)),
       (16, decide (v 16 4 ≤ 262144)), (20, decide (1 ≤ v 20 2) && decide (v 20 2 ≤ 4096)), (22, decide (1 ≤ p) && decide (p ≤ 4096)),
       (24, pt % 32 == 0 && decide (256 ≤ pt)), (32, v 32 1 == 8 || v 32 1 == 4), (35, decide (v 35 1 < 64)),
       (36, decide (v 36 2 < 32768))]
      ++ (List.range 6).map (fun i => (42 + i, v (42 + i) 1 == 0)) ++ (List.range 192).map (fun i => (64 + i, v (64 + i) 1 == 0))
    match tests.find? (fun t => !t.2) with
    | some t => fail 4 t.1
    | none =>
      if len < pt + 8 * p then fail 5 24
      else
        let off (i : Nat) := v (pt + 8 * i) 4
        let cnt (i : Nat) := v (pt + 8 * i + 4) 2
        let bad (i : Nat) : Bool :=
          off i % 32 != 0 || decide (cnt i < 1) || decide (4087 < cnt i) || v (pt + 8 * i + 6) 2 != 0
          || decide (off i < pt + 8 * p) || decide (len < off i + 32 * cnt i)
          || (List.range i).any (fun j => !(off i == off j && cnt i == cnt j)
              && decide (off i < off j + 32 * cnt j) && decide (off j < off i + 32 * cnt i))
        match (List.range p).find? bad with
        | some i => fail 5 (pt + 8 * i)
        | none =>
          match (List.range len).find? (fun a => v a 1 != 0 && !(decide (a < 256) || (decide (pt ≤ a) && decide (a < pt + 8 * p))
              || (List.range p).any (fun i => decide (off i ≤ a) && decide (a < off i + 32 * cnt i)))) with
          | some a => fail 5 a
          | none => none

/-- The negotiated level of the image, or none (11_sequencer.md R280 to R282). -/
def negLevel (st : Store) (b : Blk) : Option Nat :=
  let lmin := 256 * st.imgVal 4 1 + st.imgVal 5 1
  let lmax := 256 * st.imgVal 6 1 + st.imgVal 7 1
  let l := min (b.reg K.PLAT_MAX) lmax
  if b.reg K.PLAT_MIN ≤ l && lmin ≤ l && l ≠ 0 then some l else none

/-- A port path of R118 and the operations it serves: code 0x26, and the slot kinds: code 0x27. -/
def pathFail (d : Desc) : Option Nat :=
  let paths : List (Nat × List Nat × List Nat × Bool × Bool) :=
    [(0, [0, 1], [0x20], true, false), (1, [2, 3], [0x20, 0x21], true, false), (2, [4], [0x22], true, false),
     (3, [1, 2, 3], [0x30], false, true), (4, [5], [0x31, 0x32, 0x33], false, true), (5, [0, 2], [0x20], true, true),
     (5, [2], [0x21], true, true), (6, [1, 3], [0x20], true, true), (6, [3], [0x21], true, true), (7, [4, 5], [0x22], true, true),
     (8, [5], [0x10], false, true), (9, [3], [0x11], false, true), (10, [4], [0x51], false, true), (11, [2], [0x50], false, true),
     (12, [3], [0x60], false, true), (12, [5], [0x61], false, true), (14, [0, 1, 2, 3], [0x40, 0x41], true, true)]
  match paths.find? (fun p => p.1 == d.endpt && p.2.1.contains d.port && p.2.2.1.contains d.opc) with
  | none => some 0x26
  | some (_, _, _, sch, opn) =>
    if (if isOpenDesc d then opn else sch) && !(isOpenDesc d && decide (14 ≤ d.req)) then none else some 0x27

/-- Reserved bits and reserved values (R241 to R244): code 0x22. Values of slot and row fields that this level does not use
are reserved (10_descriptors.md, before Opcodes): a first row above 63, a row count above 64. DEDUCED (log 57). -/
def reservedBad (half : Bool) (bs : List Byte) (d : Desc) : Bool :=
  let rowOps := [0x10, 0x11, 0x20, 0x21, 0x22, 0x32, 0x40, 0x41, 0x50, 0x51]
  bits (fieldAt bs 0 4) 23 19 != 0 || decide (2 ^ 25 ≤ fieldAt bs 4 4) || decide (2 ^ 21 ≤ fieldAt bs 8 4)
  || decide (17 ≤ d.cadence) || decide (6 ≤ d.port) || d.endpt == 15 || (d.opf && !hasOpf d.opc)
  || (List.range 20).any (fun i => byteAt bs (12 + i) &&& ~~~ byteAt ((operandMask d.opc).getD []) i != 0)
  || (!nonPort d.opc || [0x01, 0x02, 0x03].contains d.opc) && (!(d.opc == 0x60 || d.opc == 0x61)) && decide (128 ≤ d.slot)
  || decide (128 ≤ d.dst) || decide (128 ≤ d.srcBase) || decide (128 ≤ d.resBase)
  || (rowOps.contains d.opc && (decide (64 ≤ d.start) || decide (64 < d.nrows)))
  || (d.opc == 0x70 && (decide (2 ≤ d.pstate) || (half && decide (16 ≤ d.gmask))))

/-- Field ranges of R246 and the statements it names: code 0x23. -/
def rangeBad (d : Desc) : Bool :=
  let rows := decide (64 < d.start + d.nrows)
  match d.opc with
  | 0x03 => decide (128 < d.nslots) || decide (128 < d.slot + d.nslots)
  | 0x20 => rows | 0x21 => rows | 0x22 => rows | 0x50 => rows | 0x51 => rows
  | 0x30 => decide (32768 < d.nidx) || d.srcTiles == 0 || decide (128 < d.srcBase + d.srcTiles)
  | 0x31 => d.nexp == 0 || decide (128 < d.nexp) || d.bktTiles == 0 || decide (64 < d.bktTiles) || d.resTiles == 0
      || decide (128 < d.resTiles) || decide (128 < d.slot + d.nexp * d.bktTiles) || decide (128 < d.resBase + d.resTiles)
      || (decide (d.slot < d.resBase + d.resTiles) && decide (d.resBase < d.slot + d.nexp * d.bktTiles))
      || decide (64 * d.bktTiles < d.cap)
  | 0x32 => rows || (d.accPort != 0 && !d.opf)
  | 0x33 => d.dstTiles == 0 || decide (128 < d.slot + d.dstTiles) || d.choices == 0 || decide (16 < d.choices)
  | 0x40 => rows || !(d.wport == 4 || d.wport == 5)
  | 0x41 => rows || !(d.wport == 4 || d.wport == 5)
  | 0x60 => d.limit == 0 || d.base % 32 != 0 || d.limit % 32 != 0 || decide (2 ^ 57 < d.base + d.limit)
  | 0x61 => d.limit == 0 || d.base % 32 != 0 || d.limit % 32 != 0 || decide (2 ^ 57 < d.base + d.limit)
  | _ => false

/-- Common fields of R244: code 0x24. `s`: the end of the schedule region. -/
def commonBad (s tickLen : Nat) (d : Desc) : Bool :=
  let zero := d.req == 0 && d.deadline == 0 && !d.qsplit
  if nonPort d.opc then
    !zero || d.cadence != 0 || d.port != 0 || d.endpt != 0
    || (if d.opc = 0x7F then d.slotCycle != 0 else decide (s ≤ d.slotCycle))
  else if isOpenDesc d then
    !(decide (d.deadline < tickLen) || d.deadline == openCycle) || d.cadence != 1
    || (d.qsplit && !([0x20, 0x22, 0x40, 0x41].contains d.opc))
  else
    decide (s ≤ d.slotCycle) || d.req != 0 || d.deadline != 0 || d.cadence == 0 || decide (16 < d.cadence)
    || (d.opc == 0x21 && (d.cadence != 1 || d.qsplit))

/-- The address rule of R153: code 0x29. -/
def addressBad (d : Desc) : Bool :=
  let a (r : Nat) : Int := (d.base : Int) + (r : Int) * d.stride
  decide (2 ^ 57 ≤ d.base) || d.base % 32 != 0 || d.stride % 32 != 0 || decide (64 < d.start + d.nrows)
  || (List.range d.nrows).any (fun i => decide (a (d.start + i) < 0) || decide ((2 ^ 57 : Int) ≤ a (d.start + i) + 1151))

/-- The running uses of R260: slots of the two contexts, ports, endpoints, merge rows of this program, Anise slots. -/
structure Uses where
  c0 : Nat := 0
  c1 : Nat := 0
  ports : Nat := 0
  eps : Nat := 0
  merge : Nat := 0
  anise : Nat := 0
  deriving DecidableEq, Repr

def Uses.add (u : Uses) (lsc : Nat) (d : Desc) : Uses :=
  let ss := descSlots d
  { c0 := ss.foldl (fun a s => if s < 64 then max a (s + 1) else a) u.c0,
    c1 := ss.foldl (fun a s => if s < 64 then a else max a (s - 63)) u.c1,
    ports := Nat.lor u.ports (descPorts d),
    eps := if nonPort d.opc then u.eps else Nat.lor u.eps (2 ^ d.endpt),
    merge := u.merge + if d.opc = 0x32 then d.nrows * (ceilLog2 lsc + 1 + if d.opf then 1 else 0) else 0,
    anise := if d.opc = 0x01 then max u.anise (d.scaleSlot + 1) else u.anise }

/-- The first claim that a use exceeds: resource, use, claim. -/
def Uses.short (u : Uses) (st : Store) : Option (Nat × Nat × Nat) :=
  let v := st.imgVal
  ([(2, u.c0, v 33 1), (3, u.c1, v 34 1), (4, u.ports, v 35 1), (5, u.eps, v 36 2), (6, u.merge, v 38 2), (7, u.anise, v 40 2)]).find?
    (fun x => if x.1 = 4 || x.1 = 5 then Nat.land x.2.1 x.2.2 != x.2.1 else decide (x.2.2 < x.2.1))

/-- The checks of one descriptor in ascending code order (R258): code, need, have, resource. `prev`: the last scheduled
slot cycle and how many descriptors share it. -/
def descFail (st : Store) (s tickLen : Nat) (half last : Bool) (prev : Option (Nat × Nat)) (u : Uses) (bs : List Byte) :
    Option (Nat × Nat × Nat × Nat) :=
  let d := decodeDesc bs
  let e (c : Nat) : Option (Nat × Nat × Nat × Nat) := some (c, 0, 0, 0)
  if bits (fieldAt bs 0 4) 11 8 ≠ 1 then e 0x20
  else if operandMask d.opc = none then e 0x21
  else if reservedBad half bs d then e 0x22
  else if rangeBad d then e 0x23
  else if commonBad s tickLen d || (isScheduled d && prev.any (fun p => decide (d.slotCycle < p.1) || (d.slotCycle == p.1 && decide (8 ≤ p.2))))
  then e 0x24
  else if (d.opc == 0x7F) != last then e 0x25
  else match (if nonPort d.opc then none else pathFail d) with
  | some c => e c
  | none =>
    if d.opc == 0x21 && (d.start % 32 != 0 || d.nrows % 32 != 0) then e 0x28
    else if (d.opc == 0x10 || d.opc == 0x11) && addressBad d then e 0x29
    else if isOpenDesc d && d.rgrp != 0 then e 0x2A
    else match (u.add (st.imgVal 20 2) d).short st with
    | some (r, n, h) => some (0x2B, n, h, r)
    | none =>
      if half && (descSlots d).any (fun x => decide (64 ≤ x)) then e 0x2C
      else if d.opc == 0x01 && !(shapeOk d.shape && pairOk (shFmt d.shape) (shMode d.shape)) then e 0x2D
      else none

/-- The descriptors of one list in turn. -/
def listFail (st : Store) (s tickLen : Nat) (half : Bool) (p off len : Nat) :
    Nat → Nat → Option (Nat × Nat) → Uses → Fail ⊕ Uses
  | 0, _, _, u => .inr u
  | n + 1, i, prev, u =>
    let bs := st.img (off + 32 * i) 32
    let d := decodeDesc bs
    match descFail st s tickLen half (i + 1 == len) prev u bs with
    | some (c, need, hv, r) => .inl { result := 4, code := c, prog := p, didx := i, cycle := d.slotCycle, need := need,
                                      have' := hv, res := r, ioff := off + 32 * i }
    | none =>
      let prev' := if !isScheduled d then prev else match prev with
        | some (c, k) => if c = d.slotCycle then some (c, k + 1) else some (d.slotCycle, 1)
        | none => some (d.slotCycle, 1)
      listFail st s tickLen half p off len n (i + 1) prev' (u.add (st.imgVal 20 2) d)

/-- The shape by which the load checks take a slot: the latest `TCFG` before the place in the image, then the slot's
status, then the last `TCFG` of the image (log entry 15). -/
def loadShape (st : Store) (b : Blk) (p i s : Nat) : Nat :=
  let cfgs := (List.range st.progs).flatMap (fun q => ((st.program q).filter (fun x => x.2.opc == 0x01 && x.2.slot == s)).map
    (fun x => (q, x.1, x.2.shape)))
  match (cfgs.filter (fun c => decide (c.1 < p) || (c.1 == p && decide (c.2.1 < i)))).getLast? with
  | some c => c.2.2
  | none => if (b.tile s).inUse then (b.tile s).shape else match cfgs.getLast? with | some c => c.2.2 | none => 0x32040

/-- The replay group rule of a program (R219): groups in ascending number, then scheduled `TCONV`s in list order. -/
def groupFail (st : Store) (b : Blk) (p : Nat) : Option Fail :=
  let prog := st.program p
  let claim := st.imgVal 16 4
  let sched := prog.filter (fun x => !isOpenDesc x.2)
  let one (m : List (Nat × Desc)) (count : Nat) : Option Fail :=
    let lastM := (m.getLast?).getD (0, {})
    let sh := loadShape st b p lastM.1
    let l := (groupSpan b sh m).2
    let f : Fail := { result := 4, code := 0x2A, prog := p, didx := lastM.1, didx2 := ((m.head?).getD (0, {})).1,
                      cycle := lastM.2.slotCycle, ioff := st.progOff p + 32 * lastM.1 }
    if count ≠ 1 then some { f with need := count, have' := 1 }
    else if claim < l then some { f with need := l, have' := claim } else none
  let gs := (sched.filter (fun x => [0x20, 0x21, 0x22].contains x.2.opc && x.2.rgrp != 0)).map (fun x => x.2.rgrp)
  let sorted := sortBy (fun g => g) (gs.foldl (fun a g => if a.contains g then a else a ++ [g]) [])
  match sorted.findSome? (fun g =>
    let m := sched.filter (fun x => [0x20, 0x21, 0x22].contains x.2.opc && x.2.rgrp == g)
    one m (m.filter (fun x => x.2.opc == 0x22)).length) with
  | some f => some f
  | none => (sched.filter (fun x => x.2.opc == 0x41)).findSome? (fun x => one [x] 1)

/-- Stage 3 ovl the programs from `p` on. -/
def descriptorFail (st : Store) (b : Blk) (s tickLen : Nat) : Nat → Nat → Uses → Option Fail
  | 0, _, _ => none
  | n + 1, p, u =>
    let half := st.imgVal 32 1 == 4
    match listFail st s tickLen half p (st.progOff p) (st.progLen p) (st.progLen p) 0 none { u with merge := 0 } with
    | .inl f => some f
    | .inr u' => match groupFail st b p with
      | some f => some f
      | none => descriptorFail st b s tickLen n (p + 1) u'

/-- Stage 4: the claims (R259). -/
def claimsFail (st : Store) (b : Blk) : Option Fail :=
  let v := st.imgVal
  let out := bit (b.reg K.UNITS_OUT) 0
  let ports := 63 - Nat.land (b.reg K.PORT_FENCED) 63
  let eps := 32767 - Nat.lor (Nat.land (b.reg K.EP_DISABLE) 16383) (if out then 16 else 0)
  let t : List (Nat × Nat × Nat × Nat) :=
    [(1, v 32 1, if b.half then min 4 b.intactGroups.length else 8, 32), (2, v 33 1, 64, 33), (3, v 34 1, if b.half then 0 else 64, 34),
     (4, v 35 1, ports, 35), (5, v 36 2, eps, 36), (6, v 38 2, if out then 0 else 1024, 38), (7, v 40 2, 4096, 40),
     (8, v 20 2, b.reg K.LSC, 20)]
  let short := t.filter (fun x =>
    if x.1 = 4 || x.1 = 5 then Nat.land x.2.1 x.2.2.1 != x.2.1
    else if x.1 = 1 || x.1 = 8 then x.2.1 != x.2.2.1 else decide (x.2.2.1 < x.2.1))
  match short with
  | [] => none
  | x :: _ => some { result := 2, code := 0x40 + x.1, need := x.2.1, have' := x.2.2.1, res := x.1, nfail := short.length, ioff := x.2.2.2 }

/-- A failure of the schedule stage: cycle, code, descriptors, unit. -/
abbrev SchedFail := Nat × Nat × Nat × Nat × Nat

/-- Conflicts of one access with an earlier one of the list (R92, R115, R117). -/
def pairFails (a c : Acc) : List SchedFail :=
  let ovl := decide (a.cyc < c.cyc + c.span) && decide (c.cyc < a.cyc + a.span)
  (if a.port = c.port && ovl && a.qs.any (fun q => c.qs.contains q) then [(max a.cyc c.cyc, 0x31, a.idx, c.idx, c.port)] else [])
  ++ (match a.bus, c.bus with
      | some x, some y => if x = y then [(y.2, 0x32, a.idx, c.idx, y.1)] else []
      | _, _ => [])
  ++ (if a.bank = c.bank then (a.rows.flatMap (fun x => c.rows.filterMap (fun y =>
        if x.2.2 = y.2.2 && (a.write || c.write || !(x.1 == y.1 && x.2.1 == y.2.1)) then some (c.bank, 0x30, a.idx, c.idx, y.2.2) else none)))
      else [])

/-- Every conflict in a list of accesses. -/
def conflicts : List Acc → List SchedFail
  | [] => []
  | a :: rest => rest.flatMap (pairFails a) ++ conflicts rest

/-- Power events of a program: cycle, idle, ports, groups (R248). -/
def powerEvents (prog : List (Nat × Desc)) : List (Nat × Bool × Nat × Nat) :=
  (prog.filter (fun x => x.2.opc == 0x70)).map (fun x => (x.2.slotCycle, x.2.pstate == 1, x.2.pmask, x.2.gmask))

/-- Unit `u` (ports, or groups from 8 on) is idle at cycle `t`, starting from `idle`. -/
def idleAt (evs : List (Nat × Bool × Nat × Nat)) (idle : Bool) (u t : Nat) : Bool :=
  evs.foldl (fun s e =>
    let named := if u < 8 then bit e.2.2.1 u else bit e.2.2.2 (u - 8)
    if !named then s else if e.2.1 then (if e.1 + 1 ≤ t then true else s) else (if e.1 + 5 ≤ t then false else s)) idle

/-- Units idle at the end of a program. -/
def idleAfter (evs : List (Nat × Bool × Nat × Nat)) (idle : List Nat) : List Nat :=
  (List.range 16).filter (fun u => idleAt evs (idle.contains u) u openCycle)

/-- Accesses that meet a unit that is not Active. -/
def powerFails (evs : List (Nat × Bool × Nat × Nat)) (idle : List Nat) (as : List Acc) : List SchedFail :=
  as.flatMap (fun a =>
    (if idleAt evs (idle.contains a.port) a.port a.cyc then [(a.cyc, 0x38, a.idx, 0xFFFF, a.port)] else [])
    ++ a.rows.filterMap (fun r => if idleAt evs (idle.contains (8 + r.2.2)) (8 + r.2.2) a.bank
        then some (a.bank, 0x38, a.idx, 0xFFFF, r.2.2) else none))

/-- The order in which a failure is named: cycle, code, descriptors. -/
def schedBefore (x y : SchedFail) : Bool :=
  decide (x.1 < y.1) || (x.1 == y.1 && (decide (x.2.1 < y.2.1) || (x.2.1 == y.2.1 && (decide (x.2.2.1 < y.2.2.1)
    || (x.2.2.1 == y.2.2.1 && decide (x.2.2.2.1 < y.2.2.2.1))))))

/-- Failures of program `p`; `idles`: units idle at its start on the two passes. -/
def progFails (st : Store) (b : Blk) (s : Nat) (p : Nat) (idles : List (List Nat)) : List SchedFail :=
  let prog := st.program p
  let evs := powerEvents prog
  let sched := prog.filter (fun x => isScheduled x.2)
  let accs := sched.flatMap (fun x => accessesOf b (loadShape st b p x.1) x.1 x.2 0)
  let t0 := b.reg K.TICK_LEN - b.reg K.GUARD - b.reg K.RECOMP_RESERVE
  let groups := if b.reg K.RECOMP_RESERVE = 0 then []
    else (sched.filter (fun x => (x.2.opc == 0x22 && x.2.rgrp != 0) || x.2.opc == 0x41)).map (fun x => replayMembers prog x.1 x.2)
  let copies := groups.map (fun m =>
    let first := m.foldl (fun a x => min a x.2.slotCycle) openCycle
    m.flatMap (fun x => accessesOf b (loadShape st b p x.1) x.1 x.2 (t0 - first)))
  let region := accs.flatMap (fun a =>
    let ts := ([a.cyc, a.bank] ++ (match a.bus with | some y => [y.2] | none => [])).filter (fun t => decide (s ≤ t))
    match ts with | [] => [] | t :: r => [(r.foldl min t, 0x34, a.idx, 0xFFFF, a.port)])
  let rate := accs.flatMap (fun a => match a.bus with
    | some (0, _) => if !a.write && decide (1 < a.qs.length) then [(a.cyc, 0x33, a.idx, 0xFFFF, a.port)] else []
    | _ => [])
  let wins := (sched.filter (fun x => x.2.opc == 0x22 || x.2.opc == 0x41)).map (fun x =>
    let as := (accessesOf b (loadShape st b p x.1) x.1 x.2 0).filter (fun a => a.write)
    (x, as.foldl (fun m a => max m a.bank) 0))
  let window := accs.flatMap (fun a => if a.write then [] else a.rows.flatMap (fun r => wins.filterMap (fun w =>
    let dst := if w.1.2.opc = 0x41 then w.1.2.dst else w.1.2.slot
    if r.1 = dst && decide (w.1.2.start ≤ r.2.1) && decide (r.2.1 < w.1.2.start + w.1.2.nrows)
        && decide (w.1.2.slotCycle ≤ a.bank) && decide (a.bank ≤ w.2)
    then some (a.bank, 0x37, a.idx, w.1.1, r.2.2) else none)))
  region ++ rate ++ conflicts accs ++ window ++ copies.flatMap conflicts
    ++ idles.flatMap (fun i => powerFails evs i accs ++ copies.flatMap (powerFails evs i))

/-- Stage 5 ovl the programs from `p` on. -/
def scheduleFail (st : Store) (b : Blk) (s : Nat) : Nat → Nat → List (List Nat) → Option Fail
  | 0, _, _ => none
  | n + 1, p, idles =>
    match progFails st b s p idles with
    | f :: fs =>
      let m := fs.foldl (fun a x => if schedBefore x a then x else a) f
      some { result := 3, code := m.2.1, prog := p, didx := m.2.2.1, didx2 := m.2.2.2.1, cycle := m.1, unit := m.2.2.2.2,
             ioff := st.progOff p + 32 * m.2.2.1 }
    | [] => scheduleFail st b s n (p + 1) (idles.map (idleAfter (powerEvents (st.program p))))

/-- Validation of the image region (R257): what fails first, or none. -/
def validateImage (st : Store) (b : Blk) (lo hi : Nat) : Option Fail :=
  let s := b.reg K.TICK_LEN - b.reg K.GUARD - b.reg K.RECOMP_RESERVE - b.reg K.FAULT_SLACK
  let n := st.progs
  match containerFail st lo hi with
  | some f => some f
  | none =>
    if negLevel st b = none then some { result := 5, code := 0x10, ioff := 4 }
    else match descriptorFail st b s (b.reg K.TICK_LEN) n 0 {} with
    | some f => some f
    | none => match claimsFail st b with
      | some f => some f
      | none =>
        let idle1 := (List.range n).foldl (fun i p => idleAfter (powerEvents (st.program p)) i) []
        scheduleFail st b s n 0 [[], idle1]

end Sys2Proof.Machine
end

