-- ==== Sys2Proof/Machine/Numerics.lean ====
section
/-! DEFINITION. The arithmetic of the conversion stage and the merge unit (09_numerics.md): exact values, encodings, FP32
addition, conversion with a scale, and the scale history Anise with the flush sentinel Clove. -/

namespace Sys2Proof.Machine

/-- An exact element value: NaN, an infinity (`neg`), or `± m * 2^e`. -/
inductive Num where
  | nan
  | inf (neg : Bool)
  | fin (neg : Bool) (m : Nat) (e : Int)
  deriving DecidableEq, Repr

/-- A floating-point encoding (R212): stored mantissa bits, exponent of the smallest normal number, code of the largest
finite value, width, code written for a NaN, and whether an infinity is written. -/
structure FloatFmt where
  m    : Nat
  emin : Int
  top  : Nat
  w    : Nat
  nanC : Nat
  infs : Bool
  deriving DecidableEq, Repr

/-- An integer encoding: exponent of its grid, width, least and largest code value. -/
structure IntFmt where
  grid : Int
  w    : Nat
  lo   : Int
  hi   : Int
  deriving DecidableEq, Repr

/-- R212. -/
def floatFmt (f : Nat) : Option FloatFmt :=
  match f with
  | 0 => some ⟨23, -126, 0x7F7FFFFF, 32, 0x7FC00000, true⟩
  | 1 => some ⟨10, -14, 0x7BFF, 16, 0x7E00, true⟩
  | 2 => some ⟨7, -126, 0x7F7F, 16, 0x7FC0, true⟩
  | 3 => some ⟨3, -6, 0x7E, 8, 0x7F, false⟩
  | 4 => some ⟨2, -14, 0x7B, 8, 0x7E, true⟩
  | 5 => some ⟨3, -6, 0x7E, 8, 0, false⟩
  | 6 => some ⟨2, -14, 0x7B, 8, 0, false⟩
  | 7 => some ⟨2, -2, 0x1F, 6, 0, false⟩
  | 8 => some ⟨3, 0, 0x1F, 6, 0, false⟩
  | 9 => some ⟨1, 0, 0x7, 4, 0, false⟩
  | _ => none

def intFmt (f : Nat) : IntFmt :=
  match f with
  | 10 => ⟨-6, 8, -127, 127⟩
  | 11 => ⟨0, 8, -128, 127⟩
  | _ => ⟨0, 32, -2147483648, 2147483647⟩

/-- `emax` of R212. -/
def emaxOf (f : Nat) : Int :=
  match f with
  | 0 => 127 | 1 => 15 | 2 => 127 | 3 => 8 | 4 => 15 | 5 => 8 | 6 => 15 | 7 => 4 | 8 => 2 | 9 => 2 | 10 => 0 | 11 => 6
  | _ => 30

/-- `floor(log2 (m * 2^e))` of a nonzero magnitude. -/
def floorLog2 (m : Nat) (e : Int) : Int := (Nat.log2 m : Int) + e

/-- `m * 2^e` in units of `2^g`, rounded to nearest, ties to even. -/
def roundTo (m : Nat) (e g : Int) : Nat :=
  if g ≤ e then m * 2 ^ (e - g).toNat
  else
    let h := 2 ^ (g - e).toNat
    let q := m / h
    let r := m % h
    if h < 2 * r || (2 * r == h && q % 2 == 1) then q + 1 else q

/-- The magnitude code of `m * 2^e` on the grid of R214, the exponent unbounded above. -/
def floatCode (f : FloatFmt) (m : Nat) (e : Int) : Nat :=
  if m = 0 then 0
  else
    let l := floorLog2 m e
    let x := if l < f.emin then f.emin else l
    (x - f.emin).toNat * 2 ^ f.m + roundTo m e (x - f.m)

/-- The value of an element code, without a scale; R212 names OCP Microscaling v1.0 and OCP 8-bit for the narrow formats.
PRESUMED (log 58): the places of sign, exponent and mantissa, and which codes are infinities and NaNs. -/
def decodeElem (f code : Nat) : Num :=
  match floatFmt f with
  | some d =>
    let neg := bit code (d.w - 1)
    let c := code % 2 ^ (d.w - 1)
    let e := c / 2 ^ d.m
    let isNan := if d.infs || f == 6 then decide (d.top + 1 < c) else (f == 3 || f == 5) && c == 0x7F
    if isNan then .nan
    else if (d.infs || f == 6) && c == d.top + 1 then .inf neg
    else if e = 0 then .fin neg (c % 2 ^ d.m) (d.emin - d.m)
    else .fin neg (2 ^ d.m + c % 2 ^ d.m) (d.emin - d.m + (e - 1 : Nat))
  | none =>
    let d := intFmt f
    let v := toSigned d.w (code % 2 ^ d.w)
    .fin (decide (v < 0)) v.natAbs d.grid

/-- Multiply by a power of two, exactly. -/
def Num.scale (x : Num) (k : Int) : Num :=
  match x with
  | .fin n m e => .fin n m (e + k)
  | y => y

/-- `round_fp32_rne` (R206), as a code; a NaN is the canonical one (R208). -/
def toFp32 (x : Num) : Nat :=
  match x with
  | .nan => 0x7FC00000
  | .inf n => (if n then 2 ^ 31 else 0) + 0x7F800000
  | .fin n m e => (if n then 2 ^ 31 else 0) + min (floatCode ⟨23, -126, 0x7F7FFFFF, 32, 0x7FC00000, true⟩ m e) 0x7F800000

/-- `add_fp32_rne` (R208). -/
def addFp32 (a b : Nat) : Nat :=
  match decodeElem 0 a, decodeElem 0 b with
  | .nan, _ => 0x7FC00000
  | _, .nan => 0x7FC00000
  | .inf p, .inf q => if p = q then toFp32 (.inf p) else 0x7FC00000
  | .inf p, _ => toFp32 (.inf p)
  | _, .inf q => toFp32 (.inf q)
  | .fin p m d, .fin q n e =>
    let g := if d < e then d else e
    let x : Int := (if p then -1 else 1) * ((m * 2 ^ (d - g).toNat : Nat) : Int)
      + (if q then -1 else 1) * ((n * 2 ^ (e - g).toNat : Nat) : Int)
    toFp32 (.fin (if x = 0 then p && q else decide (x < 0)) x.natAbs g)

/-! ### Element packing (03_tile_registers.md R61) -/

/-- The `n` element codes of a row of format `f`. -/
def unpackElems (f n : Nat) (row : List Byte) : List Nat :=
  let w := fmtBits f
  (List.range n).map (fun i =>
    if w = 6 then bits (fieldAt row (3 * (i / 4)) 3) (6 * (i % 4) + 5) (6 * (i % 4))
    else if w = 4 then bits (byteAt row (i / 2)).toNat (4 * (i % 2) + 3) (4 * (i % 2))
    else fieldAt row (w / 8 * i) (w / 8))

/-- The bytes of element codes. -/
def packElems (f : Nat) (cs : List Nat) : List Byte :=
  let w := fmtBits f
  let c (i : Nat) : Nat := (cs[i]?).getD 0
  if w = 6 then (List.range (cs.length / 4)).flatMap (fun g =>
    leBytes 3 (c (4 * g) + 2 ^ 6 * c (4 * g + 1) + 2 ^ 12 * c (4 * g + 2) + 2 ^ 18 * c (4 * g + 3)))
  else if w = 4 then (List.range (cs.length / 2)).map (fun g => BitVec.ofNat 8 (c (2 * g) + 16 * c (2 * g + 1)))
  else cs.flatMap (leBytes (w / 8))

/-- The exact values of a row's elements with its scale bytes (R213). -/
def decodeRow (shape : Nat) (pay sb : List Byte) : List Num :=
  let f := shFmt shape
  let cs := unpackElems f (elemsPerRow f (shRB shape)) pay
  let mode := shMode shape
  (List.range cs.length).map (fun i =>
    let b := (byteAt sb (if mode = 2 then i / 32 else 0)).toNat
    let v := decodeElem f ((cs[i]?).getD 0)
    if mode = 0 then v else if b = 255 then .nan else v.scale ((b : Int) - 127))

/-! ### Conversion (R214 to R217) -/

/-- What one conversion adds up: the sums of the attempt, and what the counters take. -/
structure Conv where
  sums : Sums := {}
  nonfinite : Nat := 0
  clamps : Nat := 0
  deriving DecidableEq, Repr

/-- The largest of two optional magnitudes. -/
def amaxOf (a b : Option Int) : Option Int :=
  match a, b with
  | none, y => y
  | x, none => x
  | some x, some y => some (if x < y then y else x)

/-- A finite input element enters the sums. -/
def Sums.input (s : Sums) (m : Nat) (e : Int) : Sums :=
  if m = 0 then s else { s with nonzero := s.nonzero + 1, amax := amaxOf s.amax (some (floorLog2 m e)) }

/-- The overflow result of R212. -/
def ovfOut (f : Nat) (neg : Bool) : Nat :=
  match floatFmt f with
  | some d => (if neg then 2 ^ (d.w - 1) else 0) + (if f ≤ 2 then d.top + 1 else d.top)
  | none => let d := intFmt f; ofSigned d.w (if neg then d.lo else d.hi)

/-- The code of a finite `± m * 2^e` on the destination's grid, and whether it exceeds the format. -/
def roundElem (f : Nat) (neg : Bool) (m : Nat) (e : Int) : Nat × Bool :=
  match floatFmt f with
  | some d =>
    let c := floatCode d m e
    if d.top < c then (ovfOut f neg, true) else ((if neg then 2 ^ (d.w - 1) else 0) + c, false)
  | none =>
    let d := intFmt f
    let k : Int := (if neg then -1 else 1) * (roundTo m e d.grid : Int)
    if d.hi < k || k < d.lo then (ovfOut f neg, true) else (ofSigned d.w k, false)

/-- The code is a zero of its format. -/
def zeroCode (f code : Nat) : Bool :=
  match floatFmt f with
  | some d => code % 2 ^ (d.w - 1) == 0
  | none => code == 0

/-- Convert one element (R214); `mx`: an overflow counts as a clamp (R215). -/
def convElem (f : Nat) (sigma : Int) (mx : Bool) (x : Num) (a : Conv) : Nat × Conv :=
  match x with
  | .nan => (match floatFmt f with | some d => d.nanC | none => 0, { a with nonfinite := a.nonfinite + 1 })
  | .inf n =>
    (match floatFmt f with
      | some d => if d.infs then (if n then 2 ^ (d.w - 1) else 0) + d.top + 1 else ovfOut f n
      | none => ovfOut f n, { a with nonfinite := a.nonfinite + 1 })
  | .fin n m e =>
    let (c, o) := roundElem f n m (e + sigma)
    let s := a.sums.input m e
    let s1 := { s with overflow := s.overflow || (o && !mx), flushed := s.flushed + if m ≠ 0 && zeroCode f c then 1 else 0 }
    (c, { a with sums := s1, clamps := a.clamps + if o && mx then 1 else 0 })

/-- Convert elements in turn. -/
def convElems (f : Nat) (sigma : Int) (mx : Bool) : List Num → Conv → List Nat × Conv
  | [], a => ([], a)
  | x :: xs, a =>
    let (c, a1) := convElem f sigma mx x a
    let (cs, a2) := convElems f sigma mx xs a1
    (c :: cs, a2)

def Num.finite (x : Num) : Bool :=
  match x with
  | .fin _ _ _ => true
  | _ => false

/-- Convert one MX block (R215): its codes and its scale byte. -/
def convBlock (f : Nat) (xs : List Num) (a : Conv) : List Nat × Byte × Conv :=
  if xs.all Num.finite then
    let top := xs.foldl (fun t x => match x with | .fin _ m e => (({ amax := t } : Sums).input m e).amax | _ => t) none
    let sb : Int := match top with | none => 0 | some l => clampInt (emaxOf f - l) (-127) 127
    let (cs, a1) := convElems f sb true xs a
    (cs, BitVec.ofNat 8 (127 - sb).toNat, a1)
  else
    let a1 := xs.foldl (fun a x => match x with
      | .fin _ m e => { a with sums := a.sums.input m e }
      | _ => { a with nonfinite := a.nonfinite + 1 }) a
    (xs.map (fun _ => 0), 0xFF, a1)

/-- Convert the blocks of a row. -/
def convBlocks (f : Nat) (xs : List Num) : Nat → Conv → List Nat × List Byte × Conv
  | 0, a => ([], [], a)
  | n + 1, a =>
    let (cs, s, a1) := convBlock f (xs.take 32) a
    let (ds, t, a2) := convBlocks f (xs.drop 32) n a1
    (cs ++ ds, s :: t, a2)

/-- Convert a row to shape `shape` under `sigma`: payload, scale bytes 0 to 63 (R63, R213), sums. -/
def convRow (shape : Nat) (sigma : Int) (xs : List Num) (a : Conv) : List Byte × List Byte × Conv :=
  let f := shFmt shape
  if shMode shape = 2 then
    let (cs, s, a1) := convBlocks f xs (ceilDiv xs.length 32) a
    (packElems f cs, s, a1)
  else
    let (cs, a1) := convElems f sigma false xs a
    (packElems f cs, if shMode shape = 1 then [BitVec.ofNat 8 (127 - sigma).toNat] else [], a1)

/-- Add two sums. -/
def Sums.join (a b : Sums) : Sums :=
  { overflow := a.overflow || b.overflow, amax := amaxOf a.amax b.amax, flushed := a.flushed + b.flushed,
    nonzero := a.nonzero + b.nonzero }

/-- The conversion stage is used: one that has failed its comparison will fail again (16_faults.md R380). -/
def Blk.useStage (b : Blk) : Blk :=
  if b.flt.badConv.isSome then { b with flt := { b.flt with convUsed := true } } else b

/-- What a conversion counts (R210, R215). -/
def Blk.countConv (b0 : Blk) (c : Conv) : Blk :=
  let b := b0.useStage
  let b1 := if c.nonfinite = 0 then b else b.count K.NONFINITE_IN c.nonfinite
  if c.clamps = 0 then b1 else b1.count K.MX_CLAMPS c.clamps

/-! ### Anise (R226 to R232) -/

/-- The Reset column of R226. -/
def aniseReset (margin warm : Nat) : List Byte :=
  List.replicate 16 0x80 ++ [0, 0, 0, BitVec.ofNat 8 margin, if warm = 0 then 1 else 3, 0] ++ leBytes 2 warm
    ++ List.replicate 8 0

/-- What an unlisted slot reads as: the Reset column with the defaults. -/
def aniseDefault (_ : Nat) : List Byte := aniseReset 1 16

/-- What an unlisted Clove counter reads as (log entry 5). -/
def cloveDefault (_ : Nat) : List Byte := List.replicate 16 0

def Blk.aniseSlot (b : Blk) (n : Nat) : List Byte := Tab.get aniseDefault b.anise n
def Blk.cloveSlot (b : Blk) (n : Nat) : List Byte := Tab.get cloveDefault b.clove n

/-- A slot or a counter is written: the uses of this cycle are part of what it held. -/
def Blk.setAnise (b : Blk) (n : Nat) (v : List Byte) : Blk :=
  { b with anise := Tab.set aniseDefault b.anise n v, aniseNow := b.aniseNow.filter (fun x => x.slot != n) }
def Blk.setClove (b : Blk) (n : Nat) (v : List Byte) : Blk :=
  { b with clove := Tab.set cloveDefault b.clove n v, aniseNow := b.aniseNow.filter (fun x => x.slot != n) }

/-- `COLD` of a slot. -/
def aniseCold (v : List Byte) : Bool := (byteAt v 20).getLsbD 1

/-- `ANISE_COLD_SLOTS` (R230): the unlisted slots are cold. -/
def Blk.coldSlots (b : Blk) : Nat :=
  4096 - b.anise.length + (b.anise.filter (fun c => aniseCold c.2)).length

/-- Make a slot cold (R230): the `ANISE_MARGIN_INIT` in force (14_dictionary.md R333) and `WARM_USES` as it stands (R226); the cold-scale
flag of the identity is set (R232). -/
def Blk.makeCold (b : Blk) (n : Nat) : Blk :=
  (({ b with ckpt := 0 }.setAnise n (aniseReset (b.cfg K.ANISE_MARGIN_INIT) (b.reg K.WARM_USES))).setReg K.ID_FLAGS
    (setBit (b.reg K.ID_FLAGS) 1 true)).noteSet 700

/-- A restored slot passes the checks of R230. -/
def aniseOk (v : List Byte) : Bool :=
  (byteAt v 20).getLsbD 0 && decide ((byteAt v 16).toNat ≤ 16) && decide ((byteAt v 17).toNat ≤ 15)
  && decide ((byteAt v 19).toNat ≤ 31) && decide ((byteAt v 20).toNat < 64) && decide ((byteAt v 21).toNat < 16)
  && (List.range 4).all (fun i => byteAt v (28 + i) == 0)

/-- A restore of one slot (R230, R231); the Bool says that it became cold. -/
def Blk.restoreAnise (b : Blk) (n : Nat) (v : List Byte) : Blk × Bool :=
  if aniseOk v then (b.setAnise n (padTo v 32), false) else (b.makeCold n, true)

/-- σ of a write at issue (R217, R227). -/
def Blk.sigmaOf (b : Blk) (shape slot : Nat) : Int :=
  let v := b.aniseSlot slot
  if shMode shape ≠ 1 || aniseCold v then 0
  else
    let hs := ((List.range 16).map (fun i => toSigned 8 (byteAt v i).toNat)).filter (fun h => h ≠ -128)
    match hs with
    | [] => 0
    | h :: t =>
      let m := t.foldl (fun a x => if a < x then x else a) h
      clampInt (emaxOf (shFmt shape) - m - (byteAt v 19).toNat) (-127) 127

/-- The Anise update of a use: a slot that reads `v` before (R228). -/
def useAnise (u : ScaleUse) (v : List Byte) : List Byte :=
  let pos := (byteAt v 17).toNat
  let h : Nat := match u.sums.amax with | none => 0x80 | some l => ofSigned 8 (clampInt l (-127) 127)
  let fl := (byteAt v 20).toNat
  let warm := fieldAt v 22 2
  let warm' := if bit fl 1 then warm - 1 else warm
  let fl1 := setBit (setBit (setBit fl 4 (bit fl 4 || u.ovf)) 1 (bit fl 1 && warm' != 0)) 0 true
  let v1 := putBytes v (pos % 16) [BitVec.ofNat 8 h]
  let v2 := putBytes v1 16 [BitVec.ofNat 8 (min ((byteAt v 16).toNat + 1) 16), BitVec.ofNat 8 ((pos + 1) % 16),
    BitVec.ofNat 8 (ofSigned 8 (if shMode u.shape = 1 then u.sigma else 0)), byteAt v 19, BitVec.ofNat 8 fl1,
    BitVec.ofNat 8 (shFmt u.shape)]
  putBytes v2 22 (leBytes 2 warm' ++ leBytes 4 (min (fieldAt v 24 4 + 1) 0xFFFFFFFF))

/-- `a + n`, saturating at the largest value of `w` bits. -/
def satAdd (a n w : Nat) : Nat := min (a + n) (2 ^ w - 1)

/-- The Clove update of a use (R233 to R235): the Anise slot, the counter, and the alarm raised: `FLUSH_RUN`, and whether it is masked. -/
def Blk.useClove (b : Blk) (u : ScaleUse) (v c : List Byte) : List Byte × List Byte × Option (Nat × Bool) :=
  let s := u.sums
  let run := fieldAt c 8 2
  let counting := s.nonzero ≠ 0 && decide (b.cfg K.FLUSH_FRAC * s.nonzero ≤ 256 * s.flushed)
  let run' := if s.nonzero = 0 then run else if counting then satAdd run 1 16 else 0
  let silent := if counting && s.flushed == s.nonzero then satAdd (fieldAt c 10 2) 1 16 else fieldAt c 10 2
  let alarm := counting && run' != run && run' % b.cfg K.FLUSH_RUN_LIMIT == 0
  let masked := u.mask || (byteAt v 20).getLsbD 5
  let fl := setBit (setBit (byteAt v 20).toNat 2 masked) 3 ((byteAt v 20).getLsbD 3 || alarm)
  (putBytes v 20 [BitVec.ofNat 8 fl],
    leBytes 4 (satAdd (fieldAt c 0 4) s.flushed 32) ++ leBytes 4 (satAdd (fieldAt c 4 4) s.nonzero 32) ++ leBytes 2 run'
      ++ leBytes 2 silent ++ leBytes 2 (if alarm then satAdd (fieldAt c 12 2) 1 16 else fieldAt c 12 2) ++ [0, 0],
    if alarm then some (run', masked) else none)

/-- Uses in turn: the slot, the counter, the alarms in order. -/
def Blk.useScales (b : Blk) : List ScaleUse → List Byte → List Byte → List Byte × List Byte × List (Nat × Bool)
  | [], v, c => (v, c, [])
  | u :: us, v, c =>
    let (v1, c1, a) := b.useClove u (useAnise u v) c
    let (v2, c2, as) := b.useScales us v1 c1
    (v2, c2, a.toList ++ as)

/-- One numerics alarm (R234, R235). -/
def Blk.alarm (b : Blk) (slot run : Nat) (masked : Bool) : Blk :=
  let b1 := (b.count K.CLOVE_ALARMS).setRec K.CLOVE_LAST (leBytes 8 b.stamp.toNat ++ leBytes 2 slot ++ leBytes 2 run
    ++ [if masked then 1 else 0, 0, 0, 0])
  if masked then b1 else b1.event 0x0702 1 255

/-- The uses that a slot has had in this cycle, none so far if it has had none. -/
def Blk.scaleNow (b : Blk) (slot : Nat) : ScaleNow :=
  (b.aniseNow.find? (fun n => n.slot == slot)).getD { slot := slot, anise := b.aniseSlot slot, clove := b.cloveSlot slot }

/-- A slot holds what the uses of this cycle make of it, with the alarms that are new (R228; log entry 95). -/
def Blk.setScales (b : Blk) (n : ScaleNow) : Blk :=
  let (v, c, as) := b.useScales n.uses n.anise n.clove
  let b1 := (b.setAnise n.slot v).setClove n.slot c
  let b2 := { b1 with aniseNow := { n with alarms := max n.alarms as.length } :: b1.aniseNow }
  (as.drop n.alarms).foldl (fun b a => b.alarm n.slot a.1 a.2) b2

/-- One use of an Anise slot, as the write to tile `dest` commits (R228): in the order of the destinations of this cycle. It is a
whole-slot update, which ends a fill of the slot and leaves `COMMIT` set (12_service_matrix.md R308). -/
def Blk.aniseUse (b : Blk) (dest slot shape : Nat) (sigma : Int) (s : Sums) (ovf : Bool) : Blk :=
  let u : ScaleUse := { dest := dest, shape := shape, sigma := sigma, sums := s, ovf := ovf, mask := b.rw K.CLOVE_ALARM_MASK == 1 }
  let n := b.scaleNow slot
  let before (x : ScaleUse) : Bool := decide (x.dest ≤ dest)
  { b with mx := { b.mx with fills := b.mx.fills.filter (fun f => f.1 != slot) } }.setScales
    { n with uses := n.uses.takeWhile before ++ u :: n.uses.dropWhile before }

end Sys2Proof.Machine
end

