-- ==== Sys2Proof/Machine/Tiles.lean ====
section
/-! DEFINITION. How a row reads (03_tile_registers.md R69, R74, R76, R77, R81), the bank arrays with their error
protection (04_banks.md R87 to R109), the delivered and the stored sideband (R66), and the tile events that every write
shares (R71). -/

namespace Sys2Proof.Machine

/-- How a row reads. -/
inductive RowRead where
  | dead | pad | stored | zero | hold
  deriving DecidableEq, Repr

/-- Row `r` of a tile belongs to a tile-commit write whose overflow is pending (R71). -/
def Blk.inPending (b : Blk) (s r : Nat) : Bool :=
  b.ops.any (fun o => o.pendingOvf.isSome && o.dests.any (fun d => d.1 == s)
    && decide (o.d.start ≤ r) && decide (r < o.d.start + o.d.nrows))

/-- The status word of a slot as the accesses of this cycle see it: what the cycle changes counts from the next one on (R73). -/
def Blk.seenTile (b : Blk) (s : Nat) : Tile :=
  match b.seen.find? (fun x => x.1 == s) with
  | some x => x.2
  | none => b.tile s

/-- Keep for this cycle the status words that `b` has changed since `a`. -/
def Blk.keepSeen (a b : Blk) : Blk :=
  let ss := (a.tiles ++ b.tiles).map (fun x => x.1)
  { b with seen := ss.foldl (fun l s =>
      if l.any (fun x => x.1 == s) || a.tile s = b.tile s then l else l ++ [(s, a.tile s)]) b.seen }

/-- How row `r` of slot `s` reads now (R69). `dep`: judged for the dependency check (R42, R76). A row of a pending overflow that is not valid
holds, in a tile with `ZREAD` too (DESIGN CHOICE, log entry 86). -/
def Blk.rowRead (b : Blk) (s r : Nat) (dep : Bool := false) : RowRead :=
  let t := b.seenTile s
  if !t.inUse then .dead
  else if decide (shRows t.shape ≤ r) then .pad
  else if t.rowValid.getLsbD r then .stored
  else if t.state = .damaged then .zero
  else if t.state = .overflowed && b.inPending s r then .hold
  else if t.zread && !(dep && t.state = .loading) then .zero
  else if t.abandoned && t.state ≠ .loading then .zero
  else .hold

/-- Row flags of `RFLAGS` (R65) as one byte. -/
def rflags (valid poison invalid dropped empty pad idx : Bool) : Byte :=
  BitVec.ofNat 8 ((if valid then 1 else 0) + (if poison then 2 else 0) + (if invalid then 4 else 0)
    + (if dropped then 8 else 0) + (if empty then 16 else 0) + (if pad then 32 else 0) + (if idx then 64 else 0))

/-- A zero sideband with flag byte `f`. -/
def flagSb (f : Byte) : List Byte := List.replicate 82 0 ++ [f] ++ List.replicate 45 0

/-- An error mark tells of two or more bits in error. Bits 1 and 0 of a mark are check bits stored inverted (R109, R132), bits 2 and 3
one and two bits that an upset has changed (R106). -/
def markDouble (m : Nat) : Bool := m % 4 == 3 || decide (8 ≤ m) || (decide (4 ≤ m) && m % 4 != 0)

/-- Index of a word's error mark. -/
def markIx (sb : Bool) (p e w : Nat) : Nat := if sb then 2097152 + 4096 * p + 4 * e + w else 32768 * p + 32 * e + w

/-- The errors of words `ws` of one array entry, which holds quarter `q` of row `row`. -/
def Store.errsOf (st : Store) (row q : Nat) (sb : Bool) (p e : Nat) (ws : List Nat) : List EccErr :=
  ws.filterMap (fun w =>
    let m := Tab.get zeroByte st.marks (markIx sb p e w)
    if m = 0 then none else some ⟨p, e, w, sb, markDouble m.toNat, m.toNat, row, 64 * q + (if sb then 32 else 0) + w⟩)

/-- Errors that arise in the arrays before a read (R106): the words no longer match their check bits. -/
def Store.upset (st : Store) (us : List Upset) : Store :=
  us.foldl (fun st u =>
    let i := markIx u.sb u.bank u.entry u.word
    let st1 := { st with marks := Mem.write st.marks i [Tab.get zeroByte st.marks i ||| if u.double then 8 else 4] }
    if !u.double || u.sb then st1
    else
      let a := 262144 * u.bank + 256 * u.entry + 8 * u.word
      { st1 with data := Mem.write st1.data a (leBytes 8 (leVal (Mem.read st1.data a 8) ^^^ u.flip.toNat)) }) st

/-- Payload bytes of quarter `q` below `rb`, as stored. -/
def Store.quarter (st : Store) (p e q rb : Nat) : List Byte :=
  Mem.read st.data (262144 * p + 256 * e) (min 256 (rb - 256 * q))

/-- The 32 sideband bytes of one bank; a word with a two-bit error reads as zero (R107). -/
def Store.sbQuarter (st : Store) (p e : Nat) : List Byte :=
  (List.range 4).flatMap (fun w =>
    if markDouble (Tab.get zeroByte st.marks (markIx true p e w)).toNat then List.replicate 8 0
    else Mem.read st.side (32768 * p + 32 * e + 8 * w) 8)

/-- What a row access reads from the arrays: payload (1,024 bytes, quarters not read and tail zero), sideband, the
errors found in the order of R107, and whether the content is untrusted (two-bit error, or a bank retired and not
yet remapped, R110). -/
def readArrays (st : Store) (b : Blk) (s r : Nat) (qs : List Nat) (rb : Nat) :
    List Byte × List Byte × List EccErr × Bool :=
  let e := b.entryOf s r
  let pay := (List.range 4).flatMap (fun q =>
    if qs.contains q && decide (256 * q < rb) then padTo (st.quarter (b.physOf s r q) e q rb) 256 else List.replicate 256 0)
  let sb := (List.range 4).flatMap (fun q => st.sbQuarter (b.physOf s r q) e)
  let errs := (List.range 4).flatMap (fun q =>
    (if qs.contains q && decide (256 * q < rb) then
      st.errsOf (64 * s + r) q false (b.physOf s r q) e (List.range (min 32 ((rb - 256 * q) / 8))) else [])
    ++ st.errsOf (64 * s + r) q true (b.physOf s r q) e (List.range 4))
  (pay, sb, errs, errs.any (fun x => x.double) || (List.range 4).any (fun q => b.retired (b.physOf s r q)))

/-- The delivered sideband of a row as stored (R66). -/
def deliveredSb (sb : List Byte) (valid poison invalid pad : Bool) : List Byte :=
  let f := byteAt sb 82
  slice sb 0 76 ++ [0, 0, 0, 0] ++ slice sb 80 2
  ++ [rflags valid (f.getLsbD 1 || poison) invalid (f.getLsbD 3) (f.getLsbD 4) pad (f.getLsbD 6)]
  ++ slice sb 83 2 ++ List.replicate 43 0

/-- The sideband of a row that reads as zero (R76): bytes 72 to 75 and 80 to 81 as stored. -/
def zeroRowSb (sb : List Byte) (poison : Bool) : List Byte :=
  List.replicate 72 0 ++ slice sb 72 4 ++ [0, 0, 0, 0] ++ slice sb 80 2
  ++ [rflags false poison true false false false false] ++ List.replicate 45 0

/-- A row as delivered: payload, sideband, errors found, and whether it was a row that would hold (R44). -/
structure Delivered where
  pay  : List Byte
  sb   : List Byte
  errs : List EccErr := []
  held : Bool := false
  deriving DecidableEq, Repr

/-- Deliver quarters `qs` of row `r` of slot `s` (R66, R74, R76, R77, R81). A row that would hold is delivered as
R44 gives for an access of a descriptor that has issued. A row of a damaged tile that is not valid carries the sideband bytes of R76
(DESIGN CHOICE, log entry 76). -/
def deliver (st : Store) (b : Blk) (s r : Nat) (qs : List Nat) (hold0 : RowRead) : Delivered :=
  let t := b.seenTile s
  let zeros := List.replicate 1024 (0 : Byte)
  match hold0 with
  | .dead => ⟨zeros, flagSb 4, [], false⟩
  | .pad => ⟨zeros, flagSb 33, [], false⟩
  | .stored =>
    let (pay, sb, errs, bad) := readArrays st b s r qs (shRB t.shape)
    ⟨pay, deliveredSb sb true (bad || t.state == .damaged) false false, errs, false⟩
  | .zero =>
    let (_, sb, errs, _) := readArrays st b s r [] (shRB t.shape)
    let errs := errs.filter (fun e => e.bank == b.physOf s r 2 && (e.word == 1 || e.word == 2))
    let lost := (List.range 4).any (fun q => b.retired (b.physOf s r q))
    ⟨zeros, zeroRowSb sb (lost || errs.any (fun x => x.double) || t.state == .damaged), errs, false⟩
  | .hold =>
    let (_, sb, errs, _) := readArrays st b s r [] (shRB t.shape)
    ⟨zeros, zeroRowSb sb true, errs.filter (fun e => e.bank == b.physOf s r 2 && (e.word == 1 || e.word == 2)), true⟩

/-- Count the errors of one access (R107, R113): every word once, `ECC_LAST` the first, one event 0x0202 for each bank
with an uncorrectable word in ascending bank, then the failure windows (R375). `seen`: what reads that share the access have counted of
it before (R92). -/
def Blk.countErrs (b : Blk) (stamp : Stamp) (seen errs : List EccErr) : Blk :=
  match errs with
  | [] => b
  | f :: _ =>
    let b1 := errs.foldl (fun b e =>
      (b.count (if e.double then K.ECC_UE else K.ECC_CE)).countIn K.BANK_ECC 272 (8 * e.bank + if e.double then 4 else 0)) b
    let kind := (if f.double then 1 else 0) + (if f.sb then 2 else 0)
    -- check bits that are stored inverted are the whole syndrome (R113); that of changed word bits is open (R87)
    let known := decide (f.mark < 4)
    let synd := if known then f.mark else b1.freeValue % 255 + 1
    let b2 := if seen.any (fun x => x.row == f.row && decide (x.place < f.place)) then b1
      else (if known then b1 else b1.takeFree).setRec K.ECC_LAST (leBytes 8 stamp.toNat ++ [BitVec.ofNat 8 f.bank] ++ leBytes 2 f.entry
        ++ [BitVec.ofNat 8 f.word, BitVec.ofNat 8 kind, BitVec.ofNat 8 synd, 0, 0])
    let ue := errs.filter (fun e => e.double)
    let entered (p : Nat) : Bool := seen.any (fun x => x.double && x.bank == p && ue.any (fun e => e.row == x.row))
    let b3 := (List.range 34).foldl (fun b p => if ue.any (fun e => e.bank == p) && !entered p then b.event 0x0202 2 p else b) b2
    ue.foldl (fun b e => b.bankUE e.bank (markIx e.sb e.bank e.entry e.word)) b3

/-- Count the errors of one access. Scheduled reads of one row in one cycle share a single access (R92): what another of them has counted
is not counted again, and the first word in error and the event of a bank are those of the whole access. -/
def Blk.eccAccount (b : Blk) (shared : Bool) (stamp : Stamp) (errs : List EccErr) : Blk :=
  if !shared then b.countErrs stamp [] errs
  else
    let new := errs.filter (fun e => !b.eccSeen.any (fun x => x.row == e.row && x.place == e.place))
    { b with eccSeen := b.eccSeen ++ new }.countErrs stamp b.eccSeen new

/-- Count a read of a dead slot (R74): each row access is one read (log entry 61). -/
def Blk.deadRead (b : Blk) (s : Nat) : Blk :=
  if b.rw K.DEAD_READ_REPORT = 0 then b
  else
    let t := b.tile s
    (Blk.noteSet { b with tiles := Tab.set (fun _ => ({} : Tile)) b.tiles s { t with deadRead := true } } (128 + s)).count K.DEAD_READS

/-- The mark of a word as it is written: check bits 0 and 1 inverted by a parity error (R132), and bit 0 or bits 0
and 1 by the injection of R109. Where both meet, a bit that both invert is as it was (DESIGN CHOICE, log entry 87). -/
def writtenMark (inv inj injDouble : Bool) : Byte :=
  (if inv then 3 else 0) ^^^ (if inj then (if injDouble then 3 else 1) else 0)

/-- `ECC_INJECT`, as in force from the last `ARM` (14_dictionary.md R333), is armed for a word (R109). -/
def Blk.injects (b : Blk) (sb : Bool) (p e w : Nat) : Bool :=
  let v := b.cfg K.ECC_INJECT
  bit v 23 && bits v 5 0 == p && bits v 15 6 == e && bits v 20 16 == w && bit v 21 == sb

/-- Write bytes into one array entry from word 0 on, with fresh check bits. -/
def Store.putEntry (st : Store) (b : Blk) (sb : Bool) (p e : Nat) (bs : List Byte) (inv : Bool) : Store :=
  let n := bs.length / 8
  let ms := (List.range n).map (fun w => writtenMark inv (b.injects sb p e w) (bit (b.cfg K.ECC_INJECT) 22))
  let st1 := { st with marks := Mem.write st.marks (markIx sb p e 0) ms }
  if sb then { st1 with side := Mem.write st1.side (32768 * p + 32 * e) bs }
  else { st1 with data := Mem.write st1.data (262144 * p + 256 * e) bs }

/-- A row reaches the banks: the given quarters below `rb` and the whole sideband (R58, R66, R91). -/
def Store.putRow (st : Store) (b : Blk) (s r rb : Nat) (qs : List Nat) (pay sb : List Byte) (invQ : List Nat)
    (invSb : Bool) : Store :=
  let e := b.entryOf s r
  let st1 := (qs.filter (fun q => decide (256 * q < rb))).foldl (fun st q =>
    st.putEntry b false (b.physOf s r q) e (slice pay (256 * q) (min 256 (rb - 256 * q))) (invQ.contains q)) st
  (List.range 4).foldl (fun st q => st.putEntry b true (b.physOf s r q) e (slice sb (32 * q) 32) invSb) st1

/-- A write of row `r` of slot `s` touches the word for which an injection is armed. -/
def Blk.injected (b : Blk) (s r rb : Nat) (qs : List Nat) : Bool :=
  (List.range 4).any (fun q =>
    (qs.contains q && (List.range (min 32 ((rb - 256 * q) / 8))).any (b.injects false (b.physOf s r q) (b.entryOf s r)))
    || (List.range 4).any (b.injects true (b.physOf s r q) (b.entryOf s r)))

/-- The injecting write clears `IARM` (R109), of the value in force, and of the entry and its record in the dictionary store (14_dictionary.md
R334) while they still hold that value. -/
def disarm (s r rb : Nat) (qs : List Nat) (m : Store × Blk) : Store × Blk :=
  let b := m.2
  let v := b.cfg K.ECC_INJECT
  if !b.injected s r rb qs then m
  else
    let b1 := { b with force := Tab.set regDefault b.force K.ECC_INJECT (v - 2 ^ 23) }
    if b.reg K.ECC_INJECT = v then
      ({ m.1 with dict := Mem.write m.1.dict (Config.recordFirst K.ECC_INJECT + 8) (leBytes 4 (v - 2 ^ 23)) },
        b1.setReg K.ECC_INJECT (v - 2 ^ 23))
    else (m.1, b1)

/-- A row write reaches the banks, and takes the armed injection with it. -/
def writeRow (s r rb : Nat) (qs : List Nat) (pay sb : List Byte) (invQ : List Nat) (invSb : Bool) (m : Store × Blk) : Store × Blk :=
  disarm s r rb qs (m.1.putRow m.2 s r rb qs pay sb invQ invSb, m.2)

/-- Reserved sideband bytes of a beat that are not zero (R66); `hdr` bytes from byte 96 on are a header, which is not
counted (R178, R247). -/
def rsvdNZ (sb : List Byte) (hdr : Nat) : Bool :=
  (List.range 128).any (fun i =>
    ((decide (76 ≤ i) && decide (i < 80)) || (decide (85 ≤ i) && !(decide (96 ≤ i) && decide (i < 96 + hdr))))
      && byteAt sb i != 0)

/-- The sideband as stored on a write (R66). `f` is the flag byte. -/
def storedSb (scales : List Byte) (stamp : Stamp) (tag epoch sslot : Nat) (f : Byte) : List Byte :=
  padTo scales 64 ++ leBytes 8 stamp.toNat ++ leBytes 4 (tag % 2 ^ 28) ++ [0, 0, 0, 0] ++ leBytes 2 epoch ++ [f]
    ++ leBytes 2 (sslot % 4096) ++ List.replicate 43 0

/-! ### Tile events (R71) -/

/-- A shape fault: record, counter, warning (R78, R79). -/
def Blk.shapeFault (b : Blk) (opc slot shape cause freq : Nat) : Blk :=
  ((b.setRec K.SHAPE_FAULT_LAST (leBytes 8 b.stamp.toNat ++ leBytes 4 shape ++ leBytes 4 freq ++ leBytes 2 slot
    ++ [BitVec.ofNat 8 opc, BitVec.ofNat 8 cause] ++ List.replicate 12 0)).count K.SHAPE_FAULTS).event 0x0201 1 slot

/-- A write issues to a slot: `WRITERS` + 1, `ABANDONED` cleared, loading; a tile-commit write clears `UNRECOMP` and the
rows in `clear` (R70, R71). -/
def Blk.writeIssues (b : Blk) (opc s : Nat) (clear : BitVec 64) (commit : Bool) : Blk :=
  let t := b.tile s
  b.setTile opc s { t with writers := t.writers + 1, abandoned := false, state := .loading,
                           rowValid := t.rowValid &&& ~~~clear, unrecomp := t.unrecomp && !commit }

/-- Set the rows of a write valid. -/
def Blk.setValid (b : Blk) (slot : Nat) (m : BitVec 64) : Blk :=
  let t := b.tile slot
  { b with tiles := Tab.set (fun _ => ({} : Tile)) b.tiles slot { t with rowValid := t.rowValid ||| m } }

/-- What a tile becomes when no write is in flight (R71). -/
def Blk.restState (b : Blk) (s : Nat) (commit : Bool) : TState :=
  let t := b.tile s
  let all := rowMask 0 (shRows t.shape)
  if b.ops.any (fun o => o.pendingOvf.isSome && o.dests.contains (s, t.gen)) then .overflowed
  else if t.rowValid = 0 then .empty
  else if t.rowValid &&& all = all then (if commit then .committed else .valid)
  else .part

/-- A write to slot `s` recorded under configuration `gen` ends: `WRITERS` - 1, and the tile's state follows when it was
the last (R71); a damaged tile stays damaged. `ab`: the write failed, `ABANDONED` is set. -/
def Blk.writeEnds (b : Blk) (opc s gen : Nat) (commit ab : Bool) : Blk :=
  let t := b.tile s
  if t.gen / 2 ≠ gen / 2 then b
  else
    let t1 := { t with writers := t.writers - 1, abandoned := t.abandoned || ab }
    if t1.writers = 0 && t1.state = .loading then b.setTile opc s { t1 with state := b.restState s commit }
    else b.setTile opc s t1

/-- Every destination of an operation sees its write end. -/
def Blk.endWrites (b : Blk) (o : Op) (commit ab : Bool) : Blk :=
  o.dests.foldl (fun b d => b.writeEnds o.d.opc d.1 d.2 commit ab) b

/-- How often cancels of this cycle have named slot `s`. -/
def Blk.raises (b : Blk) (s : Nat) : Nat := b.raised.count s

/-- `TREL` of a slot (R71, R75): the reads of its own cycle see it released, and a cancel of its cycle finds a dead slot (R82). `WRITERS`
becomes 0, since no write of the slot as configured is left, and `ABANDONED` and `UNRECOMP` stay (log entry 62). -/
def Blk.release (b : Blk) (opc s : Nat) : Blk :=
  let t := b.tile s
  let e := if t.inUse then subMod 65536 t.epoch (b.raises s % 65536) else t.epoch
  let t1 := { t with state := .empty, inUse := false, rowValid := 0, writers := 0, epoch := e }
  let scrub := if t.scrubPend then b.scrubRow else Tab.set (fun _ => 0) b.scrubRow s 0
  (({ b with seen := b.seen.filter (fun x => x.1 != s), scrubRow := scrub }).setTile opc s
    { t1 with scrubPend := b.cfg K.SCRUB_ON_REL == 1 }).slotChanged s

/-- `TCFG` of a slot (R71). The fields that the table does not name start anew: `START_ROW`, `WRITERS`, `ABANDONED` and `UNRECOMP`
become 0 (log entry 62); `PINNED` stays while an overflow that pins the slot is pending. A cancel of the same cycle raises the epoch that
the `TCFG` gives (R82). -/
def Blk.configure (b : Blk) (opc s shape scale epoch : Nat) (zread : Bool) : Blk :=
  let t := b.tile s
  let t1 := { t with state := .empty, inUse := true, rowValid := 0, shape := shape, scaleSlot := scale }
  let t2 := { t1 with epoch := (epoch + b.raises s) % 65536, zread := zread, startRow := 0, writers := 0, abandoned := false }
  ({ b with cfgNow := s :: b.cfgNow }.setTile opc s { t2 with unrecomp := false, scrubPend := false }).slotChanged s

/-- A trace record of kind 9 (R389). -/
def Blk.maceTrace (b : Blk) (s kind tag : Nat) : Blk :=
  b.traceRec 9 5 (leBytes 2 s ++ [BitVec.ofNat 8 kind, 0] ++ leBytes 4 tag)

/-- Raise the epoch of a slot by one (R71) and purge what active `TRETURN`s hold for it (08_route_merge.md R200). The accesses of the cycle
still see the old epoch (R73). -/
def Blk.raiseEpoch (b : Blk) (s : Nat) : Blk :=
  let t := b.tile s
  let ret (m : SemOp) : Bool := (b.op? m.op).any (fun o => o.d.opc == 0x33)
  let tags := b.sems.flatMap (fun m => if ret m then (m.rows.filter (fun r => r.slot == s && !r.done && r.result.isNone)).flatMap
    (fun r => r.leaves.map (fun l => r.tag + l.1 * 2 ^ 24)) else [])
  let b1 := { b with
    tiles := Tab.set (fun _ => ({} : Tile)) b.tiles s { t with epoch := (t.epoch + 1) % 65536, maceDisc := min (t.maceDisc + tags.length) 65535 },
    seen := if b.seen.any (fun x => x.1 == s) then b.seen else b.seen ++ [(s, t)], raised := s :: b.raised,
    sems := b.sems.map (fun m => if ret m then { m with rows := m.rows.filter (fun r => r.slot != s || r.done || r.result.isSome) } else m) }
  tags.foldl (fun b g => (b.count K.MACE_PURGED).maceTrace s 3 g) b1

end Sys2Proof.Machine
end

