-- ==== Sys2Proof/Machine/Ports.lean ====
section
/-! DEFINITION. What one access of a port does (05_ports.md): reading a row for an endpoint or the loop path, checking and
taking a write beat, the transposed feed (04_banks.md R101 to R105), and the end of an operation. -/

namespace Sys2Proof.Machine

/-! ### The end of an operation -/

/-- The requester id of an open operation: 14 for what the service thread starts (06_sumac.md R137). -/
def Op.reqId (o : Op) : Nat := if o.role = .save then 14 else o.d.req

/-- Queue an operation at its requester. -/
def Blk.enqueue (b : Blk) (port id op : Nat) : Blk :=
  let r := b.requester port id
  b.setRequester port id { r with queue := r.queue ++ [op] }

/-- Drop an operation; when it heads its requester's queue, the head's state clears (R139), and the next operation requests from the
next round on (R148). -/
def Blk.finishOp (b : Blk) (o : Op) : Blk :=
  let b1 := { b with ops := b.ops.filter (fun x => x.id != o.id) }
  if !o.opn then b1
  else
    let r := b1.requester o.d.port o.reqId
    if r.queue.head? = some o.id then
      let b2 := b1.setRequester o.d.port o.reqId { r with queue := r.queue.tail, aging := 0, missed := false }
      { b2 with ops := b2.ops.map (fun x : Op => if r.queue.tail.head? = some x.id then { x with releasedAt := b.tick.wall + 1 } else x) }
    else b1.setRequester o.d.port o.reqId { r with queue := r.queue.filter (fun x => x != o.id) }

/-- Every transfer is made and nothing of the operation is in flight. -/
def Blk.settled (b : Blk) (o : Op) : Bool :=
  o.taken && b.writes.all (fun w => w.op != o.id) && b.outs.all (fun w => w.op != o.id)

/-- An operation that ends with its last beat or row write: a feed, send, take, move, conversion or receive. A
tile-commit write waits for its commit (R216). -/
def Blk.settle (b : Blk) (id : Nat) : Blk :=
  match b.op? id with
  | none => b
  | some o =>
    if !([0x20, 0x21, 0x40, 0x50, 0x51].contains o.d.opc) || !b.settled o then b
    else if writesTile o.d.opc then (b.endWrites o false false).finishOp o
    else b.finishOp o

/-- A port operation fails (R71, R361): rows not yet written stay not valid, the destinations are abandoned, the sources
unpinned. -/
def Blk.failOp (b : Blk) (o : Op) : Blk :=
  let b1 := { b with
    writes := b.writes.filter (fun w => w.op != o.id), outs := b.outs.filter (fun w => w.op != o.id),
    ops := b.ops.map (fun x : Op => if x.id = o.id then { x with pendingOvf := none } else x) }
  ((b1.repin o.srcs).endWrites o false true).finishOp o

/-! ### Reading -/

/-- One access of a read port (04_banks.md R91): quarters `qs` of rows `rows` of slot `slot`, for operation `o`; a transposed row-quad
reads four rows. A port or a group that is not Active fails the whole access (R96, R361): each row is zero with `POISON`. -/
def accessRows (st : Store) (b : Blk) (o : Op) (port endpt slot : Nat) (rows qs : List Nat) (portErr : Bool) :
    List Delivered × Blk :=
  let banks (r : Nat) : Bool := let x := b.rowRead slot r; x != .dead && x != .pad
  let off := (rows.filter (fun r => banks r && !b.active (8 + b.groupOf slot r))).head?
  if !b.active port || off.isSome then
    (rows.map (fun _ => ⟨List.replicate 1024 0, flagSb 2, [], false⟩),
      (b.accessFault port (b.groupOf slot (off.getD (rows.headD 0))) endpt (if o.opn then 2 else 1) slot).event 0x030B 2 port)
  else
    let ds := rows.map (fun r => deliver st b slot r qs (b.rowRead slot r))
    let b1 := rows.foldl (fun b r => if b.rowRead slot r = .dead then b.deadRead slot else b) b
    let b2 := b1.eccAccount (!o.opn) b1.stamp (ds.flatMap (fun d => d.errs))
    let b3 := if ds.any (fun d => d.held) && !o.opn && !o.lateCounted then
        ((b2.count K.LATE_HOLDS).event 0x0105 2 slot).setOp { o with lateCounted := true } else b2
    if portErr then (ds.map (fun d => { d with sb := poisonSb d.sb }), b3.portError port) else (ds, b3)

/-- An access of one row. -/
def accessRead (st : Store) (b : Blk) (o : Op) (port endpt slot row : Nat) (qs : List Nat) (portErr : Bool) :
    Delivered × Blk :=
  let x := accessRows st b o port endpt slot [row] qs portErr
  (x.1.headD ⟨[], [], [], false⟩, x.2)

/-- The marks of a replay beat (09_numerics.md R221), and the link header of a `TSEND` (10_descriptors.md R247). -/
def Op.outMarks (o : Op) (row : Nat) (sb : List Byte) : List Byte :=
  if o.d.opc = 0x50 then putBytes sb 96 [BitVec.ofNat 8 o.d.chan, BitVec.ofNat 8 row, 0, 0, 0, 0, 0, 0]
  else if o.role = .replay then putBytes sb 112 ([BitVec.ofNat 8 o.attempt, 0] ++ leBytes 2 o.d.rgrp) else sb

/-- The operation makes its next transfer. -/
def Op.advance (o : Op) : Op := { o with n := o.n + 1, taken := decide (o.total ≤ o.n + 1) }

/-- The operation as `b` holds it, advanced. -/
def Blk.advanceOp (b : Blk) (id : Nat) : Blk :=
  match b.op? id with
  | some o => b.setOp o.advance
  | none => b

/-- Put a row write into the write path. -/
def Blk.putWrite (b : Blk) (w : RowWrite) : Blk :=
  { b with writes := b.writes ++ [{ w with wid := b.wNo }], wNo := b.wNo + 1 }

/-- The cycle at which a write taken now with `lat` cycles to go reaches the banks: in beats of the tick unit for a
scheduled write, in wall cycles for an open one (R123, R127). -/
def Blk.dueIn (b : Blk) (opn : Bool) (lat : Nat) : Nat := if opn then b.tick.wall + lat else b.tick.beat + lat

/-- A fault of a write beat: counter, `EP_FAULT_LAST`, and an event where the rule enters one. -/
def Blk.beatFault (b : Blk) (counter endpt port kind qen : Nat) (ev : Option (Nat × Nat)) : Blk :=
  let b1 := (b.count counter).epFault b.stamp endpt port kind qen
  match ev with
  | some (code, cls) => b1.event code cls endpt
  | none => b1

/-! ### The loop path (R119) -/

/-- A row, or one quarter of it, that a loop read delivered enters the write path (bank write at c+14): each read access feeds one
write access of its row, a converting one with the elements that its quarter completes, in the quarters of the destination row that
hold them (log entry 14). A write port that is fenced carries nothing: the row stays as it is; one that is not Active misses the beat (R361);
`bad`: the check of its arrival there fails (16_faults.md R378). The row's group is tested in the bank cycle. -/
def loopWrite (b : Blk) (o : Op) (pay sb : List Byte) (stamp : Stamp) (bad : Bool) : Blk :=
  let n := o.n
  let row := accessRow o.d o.srcShape n
  let t := b.tile o.d.dst
  let gen := (o.dests.head?.getD (0, 0)).2
  let ends := endsRow o.d o.srcShape n
  let lost := !o.opn && !b.active o.d.wport
  let b0 := if lost then ((b.accessFault o.d.wport (b.groupOf o.d.dst row) 14 1 o.d.dst).event 0x030B 2 o.d.wport).beatFault K.MISSED_BEATS
      14 o.d.wport 2 0 (some (0x0302, 2)) else b
  let b0 := if bad && !lost then b0.portError o.d.wport else b0
  let bad := sbPoison sb || o.poison.contains row || lost || bad
  let o1 : Op := { o with poison := if bad then row :: o.poison else o.poison }
  let w : RowWrite :=
    { wid := 0, kind := .row, op := o.id, slot := o.d.dst, row := row, gen := gen, quarters := [], payload := [], sb := [],
      due := b.dueIn o.opn 14, wallDue := o.opn, completes := ends, last := decide (o.total ≤ n + 1), stamp := stamp }
  if b.fenced o.d.wport then (b.setOp { o with skipped := row :: o.skipped }).advanceOp o.id
  else if converts o.d.opc (shFmt o.dstShape) then
    let q := n % perRow o.srcShape o.d.qsplit
    let parts := (if q = 0 then [] else o.strip) ++ [(if lost then [] else pay, sb)]
    let whole := (List.range 1024).map (fun i => parts.foldl (fun a p => a ||| byteAt p.1 i) 0)
    let (lo, hi) := loopRange o.srcShape o.dstShape o.d.qsplit q
    let xs := (decodeRow o.srcShape whole sb).take hi
    let (bytes, scales, _) := convRow o.dstShape o.sigma xs {}
    let (_, _, c) := convRow o.dstShape o.sigma (xs.drop lo) {}
    let s := storedSb scales stamp (fieldAt sb 72 4) t.epoch t.scaleSlot (rflags true bad false false false false false)
    ((((b0.countConv c).setOp { o1 with strip := if ends then [] else parts, sums := o.sums.join c.sums }).putWrite
      { w with quarters := loopQuarters o.srcShape o.dstShape o.d.qsplit q, payload := padTo bytes (shRB o.dstShape), sb := s })).advanceOp o.id
  else
    let qs := if o.d.qsplit then accessQuarters o.d o.srcShape n else List.range (shQuarters o.dstShape)
    let s := storedSb (slice sb 0 64) stamp (fieldAt sb 72 4) t.epoch (fieldAt sb 83 2)
      (rflags true bad false false false false false)
    ((b0.setOp o1).putWrite { w with quarters := qs, payload := if lost then [] else pay, sb := s }).advanceOp o.id

/-! ### The transposed feed (R101 to R105) -/

/-- Output beats of a strip: the lanes of quarter `q` that are not tail, in pairs for a 2-byte format. -/
def stripBeats (shape q : Nat) : Nat :=
  let lanes := min 8 (shUnits shape - 8 * q)
  if fmtBits (shFmt shape) = 16 then 2 * ((lanes + 1) / 2) else lanes

/-- Payload and sideband of beat `j` of a strip of quarter `q`, from its 32 rows (R102, R103). -/
def stripBeat (shape q j : Nat) (rows : List (List Byte × List Byte)) : List Byte × List Byte :=
  let two := fmtBits (shFmt shape) = 16
  let blk := if two then 4 * q + j / 2 else 8 * q + j
  let src := if two then (rows.drop (16 * (j % 2))).take 16 else rows
  let pay := (List.range 32).flatMap (fun l => src.flatMap (fun r =>
    if two then slice r.1 (2 * (32 * blk + l)) 2 else [byteAt r.1 (32 * blk + l)]))
  let sc := src.map (fun r => match shMode shape with | 2 => byteAt r.2 blk | 1 => byteAt r.2 0 | _ => 0)
  let flag (i : Nat) : List Byte := leBytes 4
    ((List.range src.length).foldl (fun a k => if (byteAt ((src[k]?).getD ([], [])).2 82).getLsbD i then a + 2 ^ k else a) 0)
  (pay, padTo sc 32 ++ flag 0 ++ flag 1 ++ flag 5 ++ flag 2 ++ List.replicate 80 0)

/-- First row and quarter of row-quad `n` of a transposed feed (R101). -/
def quadOf (d : Desc) (shape n : Nat) : Nat × Nat :=
  let nq := max 1 (shQuarters shape)
  (d.start + 32 * (n / 8 / nq) + 4 * (n % 8), n / 8 % nq)

/-- One row-quad of a transposed feed: four rows are read; the last quad of a strip sends its beats. -/
def feedQuad (st : Store) (b : Blk) (o : Op) (ready portErr : Bool) : Blk :=
  let strip := o.n / 8
  let (row0, q) := quadOf o.d o.srcShape o.n
  let (quad, b1) := accessRows st b o o.d.port o.d.endpt o.d.slot ((List.range 4).map (fun i => row0 + i)) [q] portErr
  let ds := quad.map (fun d => (d.pay, d.sb))
  let o1 := (b1.op? o.id).getD o
  let rows := o1.strip ++ ds
  if o.n % 8 ≠ 7 then (b1.setOp { o1 with strip := rows }).advanceOp o.id
  else
    let beats := (List.range (stripBeats o.srcShape q)).map (fun j =>
      let (pay, sb) := stripBeat o.srcShape q j rows
      let stamp := if o.opn then b.stamp else mkStamp o.tick (o.base + 16 * strip + 2 * j) 0
      ({ endpt := o.d.endpt, port := o.d.port, op := o.id, beat := mkBeat pay (o.outMarks 0 sb) stamp 15,
         due := b.dueIn o.opn (8 + 2 * j), slot := o.d.slot, ready := ready, opn := o.opn } : OutBeat))
    let b2 := (b1.setOp { o1 with strip := [] }).advanceOp o.id
    { b2 with outs := b2.outs ++ beats }

/-! ### One read access -/

/-- The next read access of an operation that reads tile rows: its beat goes to the endpoint (c+6) or into the loop
path. -/
def readAccess (st : Store) (b : Blk) (o : Op) (ready : Bool) (err : PathErr) : Blk :=
  if o.d.opc = 0x21 then feedQuad st b o ready err.read
  else
    let row := accessRow o.d o.srcShape o.n
    let qs := accessQuarters o.d o.srcShape o.n
    let stamp := if o.opn then b.stamp ||| BitVec.ofNat 64 (2 * accessQtr o.d o.srcShape o.n) else o.schedStamp o.srcShape
    let (d, b1) := accessRead st b o o.d.port o.d.endpt o.d.slot row qs err.read
    let o1 := (b1.op? o.id).getD o
    if isLoop o.d.opc then loopWrite b1 o1 d.pay d.sb stamp err.write
    else
      let out : OutBeat :=
        { endpt := o.d.endpt, port := o.d.port, op := o.id, slot := o.d.slot, ready := ready, opn := o.opn,
          beat := mkBeat d.pay (o.outMarks row d.sb) stamp (qenOf qs), due := b.dueIn o.opn 6 }
      let b2 := b1.advanceOp o.id
      { b2 with outs := b2.outs ++ [out] }

/-! ### Taking a write beat (R132) -/

/-- What the checks of a taken beat leave: data with what is missing as zero, poison, row quarters and sideband to be stored
with inverted check bits. -/
structure Taken where
  data : List Byte
  bad  : Bool
  invQ : List Nat
  invSb : Bool
  deriving DecidableEq, Repr

/-- The quarter and parity checks of R132 and R157. `eqs`: the quarters the access takes; `rowQ k`: the row quarters that
hold data from beat quarter `k`. A quarter that an open beat lacks is taken as zero, with `EP_PROTO` (DESIGN CHOICE, log entry 78). -/
def checkBeat (b : Blk) (opn : Bool) (endpt port : Nat) (eqs : List Nat) (rowQ : Nat → List Nat) (bt : Beat) : Blk × Taken :=
  let qen := bt.qen.toNat
  let extra := (List.range 4).any (fun q => bt.qen.getLsbD q && !eqs.contains q)
  let miss := eqs.any (fun q => !bt.qen.getLsbD q)
  let badQ := badQuarters bt eqs
  let b1 := if extra then b.beatFault K.EP_PROTO endpt port 8 qen none else b
  let b2 := if !miss then b1 else if opn then b1.beatFault K.EP_PROTO endpt port 8 qen none
    else b1.beatFault K.MISSED_BEATS endpt port 2 qen (some (0x0302, 2))
  let b3 := if badQ = [] then b2 else b2.beatFault K.EP_PARITY endpt port 5 qen (some (0x0304, 2))
  let b4 := if sbBad bt then b3.beatFault K.EP_PARITY endpt port 6 qen (some (0x0304, 2)) else b3
  (b4, ⟨takenData bt eqs, miss || badQ != [] || sbBad bt || sbPoison bt.sb, badQ.flatMap rowQ, sbBad bt⟩)

/-- The stamp check of a taken beat (R51, R132): the Bool says that the stamp is at fault. Wrong parity of the stamp counts as a parity
error and as a stamp at fault, in this order (DESIGN CHOICE, log entry 79). -/
def checkStamp (b : Blk) (opn : Bool) (endpt port : Nat) (expected : Option Stamp) (bt : Beat) : Blk × Bool :=
  let par := stampBad bt
  let b1 := if par then b.beatFault K.EP_PARITY endpt port 7 bt.qen.toNat (some (0x0304, 2)) else b
  let bad := par || b.badStamp bt.stamp || expected.any (fun s => s != bt.stamp)
  if !bad then (b1, false)
  else if opn then (b1.beatFault K.BAD_STAMPS endpt port 4 bt.qen.toNat (some (0x0305, 1)), true)
  else (b1.beatFault K.STAMP_MISMATCH endpt port 3 bt.qen.toNat (some (0x0303, 2)), true)

/-- Count a beat with nonzero reserved sideband bytes (R66). -/
def Blk.countRsvd (b : Blk) (sb : List Byte) (hdr : Nat) : Blk := if rsvdNZ sb hdr then b.count K.SB_RSVD_NZ else b

/-- The row quarters of access `n` that hold elements of beat quarter `k` of a converting write. -/
def convRowQ (d : Desc) (shape n k : Nat) : List Nat :=
  let (a, c) := convElemsOf d shape n
  let lo := max a (64 * k)
  let hi := min (a + c) (64 * k + 64)
  elemQuarters (shFmt shape) lo (hi - lo)

/-- The quarters of the endpoint bus that the next take of a `TTAKE` takes (R394). -/
def takeQuarters (o : Op) : List Nat :=
  if converts o.d.opc (shFmt o.dstShape) then convBeatQuarters o.d o.dstShape o.n else accessQuarters o.d o.dstShape o.n

/-- The checked beat of the next access of a `TTAKE` enters the write path (bank write at c+9). -/
def takeRow (b : Blk) (o : Op) (k : Taken) (sb : List Byte) (bad : Bool) (stamp : Stamp) : Blk :=
  let n := o.n
  let shape := o.dstShape
  let row := accessRow o.d shape n
  let t := b.tile o.d.slot
  let bad := k.bad || bad || o.poison.contains row
  let o1 : Op := { o with poison := if bad then row :: o.poison else o.poison }
  let fl := rflags true bad false false false false false
  let b0 := b.countRsvd sb (if o.d.opc = 0x51 then 8 else 0)
  let epoch := if o.d.opc = 0x51 then fieldAt sb 80 2 else t.epoch
  let w : RowWrite :=
    { wid := 0, kind := .row, op := o.id, slot := o.d.slot, row := row, gen := (o.dests.head?.getD (0, 0)).2,
      quarters := accessQuarters o.d shape n, payload := k.data, invQ := k.invQ, invSb := k.invSb,
      sb := storedSb (slice sb 0 64) stamp (fieldAt sb 72 4) epoch (fieldAt sb 83 2) fl,
      due := b.dueIn o.opn 9, wallDue := o.opn, completes := endsRow o.d shape n, last := decide (o.total ≤ n + 1),
      stamp := stamp }
  if converts o.d.opc (shFmt shape) then
    let bf := if shFmt shape ≤ 10 then 0 else 12
    let (a, c) := convElemsOf o.d shape n
    let xs := (((unpackElems bf 256 k.data).drop a).take c).map (decodeElem bf)
    let (bytes, scales, cv) := convRow shape o.sigma xs {}
    let pay := if a = 0 then bytes else List.replicate (256 * (n % perRow shape true)) 0 ++ bytes
    (((b0.countConv cv).setOp { o1 with sums := o.sums.join cv.sums }).putWrite
      { w with payload := pay, sb := storedSb scales stamp (fieldAt sb 72 4) t.epoch t.scaleSlot fl }).advanceOp o.id
  else ((b0.setOp o1).putWrite w).advanceOp o.id

/-- The scheduled take of a `TTAKE` (R132): `none` when the peer drives no `VALID`. A fenced port carries no access (R133): the row
stays not written; one that is not Active misses the beat (15_states_power.md R361), and the row's group is tested in the bank cycle (04_banks.md
R96). -/
def scheduledTake (b : Blk) (o : Op) (beat : Option Beat) (portErr : Bool) : Blk :=
  let stamp := o.schedStamp o.dstShape
  let row := accessRow o.d o.dstShape o.n
  let grp := b.groupOf o.d.slot row
  let off := !b.active o.d.port
  let b0 := if off then (b.accessFault o.d.port grp o.d.endpt 1 o.d.slot).event 0x030B 2 o.d.port else b
  let eqs := takeQuarters o
  let rowQ (k : Nat) := if converts o.d.opc (shFmt o.dstShape) then convRowQ o.d o.dstShape o.n k else [k]
  if b.fenced o.d.port then (b.setOp { o with skipped := row :: o.skipped }).advanceOp o.id
  else match if off then none else beat with
  | none =>
    let b1 := b0.beatFault K.MISSED_BEATS o.d.endpt o.d.port 2 0 (some (0x0302, 2))
    takeRow (if portErr then b1.portError o.d.port else b1) o ⟨List.replicate 1024 0, true, [], false⟩ [] true stamp
  | some bt =>
    let (b1, sBad) := checkStamp b0 false o.d.endpt o.d.port (some stamp) bt
    let (b2, k) := checkBeat b1 false o.d.endpt o.d.port eqs rowQ bt
    takeRow (if portErr then b2.portError o.d.port else b2) o k bt.sb (sBad || portErr) stamp

/-- A command that moves a scheduled beat acts only while ticks run unheld (02_tick.md R46). -/
def Blk.moving (b : Blk) : Bool := b.ticking && !b.tick.frozen

/-- `SCHEDULED_READ_ACCESS`: the next read access of a scheduled operation. -/
def execScheduledReadAccess (op : Nat) (ready : Bool) (portErr : PathErr) (upsets : List Upset) (s : State) :
    Host.Outcome State Fault Refusal :=
  match s.blk.op? op with
  | some o =>
    if o.opn || !s.blk.moving || !readsTile o.d.opc || o.taken then .next s
    else
      let st := s.mem.upset upsets
      let b1 := if s.blk.fenced o.d.port then s.blk.advanceOp op else readAccess st s.blk o ready portErr
      .next (s.ordered { s with mem := st, blk := b1.settle op })
  | none => .next s

/-- `SCHEDULED_WRITE_TAKE`: the next take of a scheduled `TTAKE`. -/
def execScheduledWriteTake (op : Nat) (beat : Option Beat) (portErr : Bool) (s : State) :
    Host.Outcome State Fault Refusal :=
  match s.blk.op? op with
  | some o =>
    if o.opn || !s.blk.moving || o.d.opc ≠ 0x22 || o.taken then .next s
    else .next (s.cyc (fun _ b => scheduledTake b o beat portErr))
  | none => .next s

end Sys2Proof.Machine
end

