-- ==== Sys2Proof/Machine/Merge.lean ====
section
/-! DEFINITION. The merge unit (08_route_merge.md R177 to R203): the fixed tree of `TMERGE`, routing with capacity and drops,
the return by tag behind Mace, and the merge buffer. -/

namespace Sys2Proof.Machine

/-! ### The tree (R182, R185) -/

/-- Shards `lo` to `hi - 1` all lie in closed intervals. -/
def covered (cl : List (Nat × Nat)) (lo hi : Nat) : Bool :=
  let pass (x : Nat) : Nat := cl.foldl (fun x c => if c.1 ≤ x && decide (x ≤ c.2) then c.2 + 1 else x) x
  decide (hi ≤ (List.range cl.length).foldl (fun x _ => pass x) lo)

/-- A node over shards `lo` to `hi - 1`: final, holding a value, and buffer rows its unfinished part occupies (R186). -/
def treeNode (closed : List (Nat × Nat)) : Nat → Nat → Nat → List Nat → Bool × Bool × Nat
  | 0, _, _, ls => (false, !ls.isEmpty, 0)
  | fuel + 1, lo, hi, ls =>
    if ls.isEmpty then (covered closed lo hi, false, 0)
    else if hi - lo ≤ 1 then (true, true, 0)
    else
      let m := lo + 2 ^ (ceilLog2 (hi - lo) - 1)
      let (fl, pl, hl) := treeNode closed fuel lo m (ls.filter (fun s => decide (s < m)))
      let (fr, pr, hr) := treeNode closed fuel m hi (ls.filter (fun s => decide (m ≤ s)))
      if fl && fr then (true, true, 0)
      else (false, true, (if fl then if pl then 1 else 0 else hl) + (if fr then if pr then 1 else 0 else hr))

/-- `combine` of R182, element by element. -/
def combine (a b : Option (List Nat)) : Option (List Nat) :=
  match a, b with
  | none, y => y
  | x, none => x
  | some x, some y => some (List.zipWith addFp32 x y)

/-- The value of the node over shards `lo` to `hi - 1` (R182). -/
def treeValue : Nat → Nat → Nat → Tab (List Nat) → Option (List Nat)
  | 0, _, _, _ => none
  | fuel + 1, lo, hi, ls =>
    if ls.isEmpty then none
    else if hi - lo ≤ 1 then (ls.head?).map (fun l => l.2)
    else
      let m := lo + 2 ^ (ceilLog2 (hi - lo) - 1)
      combine (treeValue fuel lo m (ls.filter (fun s => decide (s.1 < m))))
        (treeValue fuel m hi (ls.filter (fun s => decide (m ≤ s.1))))

/-! ### The merge buffer (R179, R186, R198) -/

/-- Choices present from 0 upward without a gap. -/
def foldRun (cs : List Nat) : Nat := ((List.range 16).takeWhile (fun c => cs.contains c)).length

/-- Buffer rows a destination row occupies once its additions are made. -/
def rowKept (opc lsc : Nat) (closed : List (Nat × Nat)) (r : MRow) : Nat :=
  if opc = 0x32 then
    if r.result.isSome then 1
    else
      let (f, p, h) := treeNode closed 13 0 lsc (r.leaves.map (fun l => l.1))
      (if f then if p && !r.done then 1 else 0 else h) + (if r.preload.isSome then 1 else 0)
  else if r.done || r.result.isSome then 0
  else if r.ready.isSome then 1
  else
    let cs := r.leaves.map (fun l => l.1)
    let run := foldRun cs
    (if run = 0 then 0 else 1) + (cs.length - run)

/-- Buffer rows a destination row occupies: two held values are two rows until the addition that joins them starts (R179). -/
def rowHeld (wall opc lsc : Nat) (closed : List (Nat × Nat)) (r : MRow) : Nat :=
  rowKept opc lsc closed r + (r.adds.filter (fun t => decide (wall < t))).length

/-- `MERGE_BUF_USED`. -/
def Blk.bufUsed (b : Blk) : Nat :=
  (b.sems.map (fun m => match b.op? m.op with
    | some o => (m.rows.map (rowHeld b.tick.wall o.d.opc (b.cfg K.LSC) m.closed)).sum
    | none => 0)).sum

/-- Note the highest occupancy. -/
def Blk.notePeak (b : Blk) : Blk := b.setReg K.MERGE_BUF_PEAK (max (b.reg K.MERGE_BUF_PEAK) (min b.bufUsed 1024))

def Blk.setSem (b : Blk) (m : SemOp) : Blk := { b with sems := b.sems.map (fun x => if x.op = m.op then m else x) }

def SemOp.setRow (m : SemOp) (r : MRow) : SemOp :=
  { m with rows := m.rows.map (fun x => if x.slot = r.slot ∧ x.row = r.row then r else x) }

/-- The `OPID` of an SE-M operation. -/
def Blk.semId (b : Blk) (m : SemOp) : Option Nat := (b.op? m.op).map (fun o => o.d.opid)

/-- Released operations become active, up to eight, in order of release, one for each `OPID` (R177). -/
def Blk.activateSems (b : Blk) : Blk :=
  b.sems.foldl (fun b m =>
    let on := b.sems.filter (fun x => x.live)
    if m.live || !decide (on.length < 8) || on.any (fun x => b.semId x == b.semId m) then b
    else { b with sems := b.sems.map (fun x => if x.op = m.op then { x with live := true } else x) }) b

/-- The merge unit forgets an SE-M operation, with its preload operation and a refusal of its contribution (R187). -/
def Blk.dropSem (b : Blk) (o : Op) : Blk :=
  let b1 := { b with sems := b.sems.filter (fun m => m.op != o.id), refused := if b.refused = some o.id then none else b.refused }
  (b1.ops.filter (fun p => p.role == .preload && p.idx == o.id)).foldl (fun b p => b.finishOp p) b1

/-- An SE-M operation leaves the merge unit; the next may become active. -/
def Blk.endSem (b : Blk) (o : Op) : Blk := ((b.dropSem o).finishOp o).activateSems

/-- An SE-M operation fails (R184, R361, R379). -/
def Blk.failSem (b : Blk) (o : Op) : Blk := ((b.dropSem o).failOp o).activateSems

/-! ### Faults and grants -/

/-- A fault of an `SE-M` beat with its record `SEM_FAULT_LAST` (R205): kind, shard or choice, row. -/
def Blk.semFault (b : Blk) (counter code unit : Nat) (bt : Beat) (kind val row : Nat) : Blk :=
  ((b.count counter).setRec K.SEM_FAULT_LAST (leBytes 8 b.stamp.toNat ++ slice bt.sb 98 2 ++ slice bt.sb 96 1
    ++ [BitVec.ofNat 8 kind] ++ leBytes 2 val ++ [BitVec.ofNat 8 row, 0])).event code 2 unit

/-- A beat that reaches no operation (R178): discarded, `EP_PROTO`. -/
def Blk.noTarget (b : Blk) (endpt : Nat) (qen : Nat) : Blk := if b.busLow endpt then b else b.beatFault K.EP_PROTO endpt 0xFF 8 qen none

/-- Sumac may grant on a port in this cycle (06_sumac.md R140). -/
def Blk.roundNow (b : Blk) (port : Nat) : Bool :=
  b.ticking && !b.fenced port && (b.tick.frozen || !(b.inGuard || b.inExt))

/-- The operation heads its requester's queue. -/
def Blk.isHead (b : Blk) (o : Op) : Bool := (b.requester o.d.port o.reqId).queue.head? == some o.id

/-- Count quarter positions granted in open slots (`PORT_LOAD`), and clear the requester's aging (R144). -/
def Blk.noteGrant (b : Blk) (port id n : Nat) : Blk :=
  let s := { b.sched with grants := Tab.set (fun _ => 0) b.sched.grants port (Tab.get (fun _ => 0) b.sched.grants port + n) }
  ({ b with sched := s }).setRequester port id { b.requester port id with aging := 0 }

/-- The active operation that a beat's `MOP` names, when its `MKIND` belongs to it (R177, R178). -/
def Blk.semTarget (b : Blk) (bt : Beat) : Option (Op × SemOp) :=
  let kind := (byteAt bt.sb 96).toNat
  let opc := if kind = 1 || kind = 2 then 0x32 else if kind = 3 || kind = 4 then 0x31 else if kind = 5 || kind = 6 then 0x33 else 0
  b.sems.findSome? (fun m => match b.op? m.op with
    | some o => if m.live && o.d.opid = fieldAt bt.sb 98 2 && o.d.opc = opc then some (o, m) else none
    | none => none)

/-- An open operation meets a unit that is not Active (R361): access fault, warnings, the operation fails. -/
def Blk.openAccessFault (b : Blk) (o : Op) (port group slot : Nat) : Blk :=
  (((b.accessFault port group o.d.endpt 2 slot).event 0x030A 1 port).event 0x0504 1 slot)

/-! ### Writing rows -/

/-- Update the sums of an operation. -/
def Blk.addSums (b : Blk) (id : Nat) (s : Sums) : Blk :=
  match b.op? id with
  | some o => b.setOp { o with sums := o.sums.join s }
  | none => b

/-- The configuration count an operation recorded for a destination slot. -/
def Op.genOf (o : Op) (slot : Nat) : Nat :=
  match o.dests.find? (fun d => d.1 == slot) with
  | some d => d.2
  | none => 0

/-- A `TMERGE` row result enters the write path (R183, R211), `lat` cycles from the banks. -/
def Blk.writeMerge (b : Blk) (o : Op) (r : MRow) (lat : Nat) : Blk :=
  match r.result with
  | none => b
  | some codes =>
    let t := b.tile r.slot
    let (bytes, scales, c) := convRow o.dstShape o.sigma (codes.map (decodeElem 0)) {}
    let w : RowWrite :=
      { wid := 0, kind := .row, op := o.id, slot := r.slot, row := r.row, gen := o.genOf r.slot,
        quarters := List.range (shQuarters o.dstShape), payload := bytes,
        sb := storedSb scales b.stamp r.tag t.epoch t.scaleSlot (rflags true r.poison false false r.empty false false),
        invQ := r.invQ, invSb := r.invSb, due := b.tick.wall + lat, wallDue := true, stamp := b.stamp }
    (if r.summed then b.useStage else (b.countConv c).addSums o.id c.sums).putWrite w

/-- A finalised `TRETURN` row enters the write path (R198): the one leaf as received, or the converted sum. -/
def Blk.writeReturn (b : Blk) (o : Op) (r : MRow) (lat : Nat) : Blk :=
  let t := b.tile r.slot
  let w : RowWrite :=
    { wid := 0, kind := .row, op := o.id, slot := r.slot, row := r.row, gen := o.genOf r.slot,
      quarters := List.range (shQuarters t.shape), payload := [], sb := [], invQ := r.invQ, invSb := r.invSb,
      due := b.tick.wall + lat, wallDue := true, leaves := some r.leaves.length, stamp := b.stamp }
  let fl := rflags true r.poison false false false false false
  match r.single, r.leaves with
  | some bt, [_] => b.putWrite { w with
      payload := bt.data, sb := storedSb (slice bt.sb 0 64) b.stamp r.tag r.epoch (fieldAt bt.sb 83 2) fl }
  | _, _ =>
    match (sortBy (fun x => x.1) r.leaves).foldl (fun a l => combine a (some l.2)) none with
    | none => b
    | some codes =>
      let u := b.sems.findSome? (fun m => if m.op = o.id then m.uses.find? (fun u => u.1 == r.slot) else none)
      let sigma : Int := match u with | some x => x.2.1 | none => 0
      let (bytes, scales, c) := convRow t.shape sigma (codes.map (decodeElem 0)) {}
      let b1 := { b.countConv c with
        sems := b.sems.map (fun m : SemOp => if m.op = o.id then { m with
          uses := m.uses.map (fun u : Nat × Int × Sums × Bool => if u.1 = r.slot then (u.1, u.2.1, u.2.2.1.join c.sums, true) else u) } else m) }
      b1.putWrite { w with payload := bytes, sb := storedSb scales b.stamp r.tag r.epoch t.scaleSlot fl, ovf := c.sums.overflow }

/-! ### The adder (R179, R180) -/

/-- Additions of earlier beats are outstanding. -/
def Blk.adderBusy (b : Blk) : Bool := decide (b.tick.wall < b.adderEnd)

/-- `h` additions of one row that an event of this cycle causes: they start from the third cycle on, each after the one before it,
behind those of earlier events, one a cycle (R179). The cycles in which they start, and the state of the adder then. -/
def Blk.addRow (b : Blk) (h : Nat) : List Nat × Blk :=
  let t0 := max (b.tick.wall + 3) b.adderNext
  if h = 0 then ([], b)
  else ((List.range h).map (fun i => t0 + 2 * i), { b with adderNext := t0 + 2 * h - 1, adderEnd := t0 + 2 * h })

/-- The cycle from which a value is ready whose additions start in the given cycles: `c + 3 + 2h`, later behind earlier additions
(R180; log entry 66). -/
def readyAt (wall : Nat) (starts : List Nat) : Nat := starts.foldl (fun _ t => t + 2) (wall + 3)

/-- Additions made so far for the final nodes of a row's tree. -/
def addsMade (lsc : Nat) (closed : List (Nat × Nat)) (r : MRow) : Nat :=
  let (f, _, h) := treeNode closed 13 0 lsc (r.leaves.map (fun l => l.1))
  r.leaves.length - (if f then min 1 r.leaves.length else h)

/-- Additions that a complete `TMERGE` row takes, less those already made before the last input (R180). -/
def addsLeft (lsc : Nat) (before : MRow) (closedBefore : List (Nat × Nat)) (after : MRow) : Nat :=
  after.leaves.length + (if after.preload.isSome then 1 else 0) - 1 - addsMade lsc closedBefore before

/-- A row of a `TMERGE` whose inputs may be complete: its additions enter the adder; a complete result is formed (R183) and offered:
at once on the fast path when a beat completed it with at most one addition, else as a root write (R180). The first addition that a
beat causes takes the beat's own value; each other one frees a buffer row as it starts (R186). -/
def Blk.evalMerge (b : Blk) (o : Op) (slot row : Nat) (closedBefore : List (Nat × Nat)) (before : MRow) (beat : Bool) : Blk :=
  match b.sems.find? (fun m => m.op == o.id) with
  | none => b
  | some m => match m.rows.find? (fun r => r.slot == slot && r.row == row) with
    | none => b
    | some r =>
      let lsc := b.cfg K.LSC
      let freeing (ts : List Nat) : List Nat := r.adds ++ ts.drop (if beat then 1 else 0)
      if r.done || r.result.isSome then b
      else if r.needsPre && r.preload.isNone || !(treeNode m.closed 13 0 lsc (r.leaves.map (fun l => l.1))).1 then
        let (ts, b1) := b.addRow (addsMade lsc m.closed r - addsMade lsc closedBefore before)
        b1.setSem (m.setRow { r with adds := freeing ts })
      else
        let root := treeValue 13 0 lsc r.leaves
        let res := combine root r.preload
        match if o.d.opf then res else some (root.getD (List.replicate (elemsPerRow (shFmt o.dstShape) (shRB o.dstShape)) 0)) with
        | none => b.setSem (m.setRow { r with done := true })
        | some v =>
          let empty := !o.d.opf && root.isNone
          let b1 := if empty then b.count K.EMPTY_MERGES else b
          let h := addsLeft lsc before closedBefore r
          let (ts, b2) := b1.addRow h
          let r1 := { r with result := some v, empty := empty, adds := freeing ts }
          if beat && decide (h ≤ 1) && !b.adderBusy then ((b2.setSem (m.setRow { r1 with summed := true })).writeMerge o r1 14)
          else b2.setSem (m.setRow { r1 with ready := some (readyAt b.tick.wall ts) })

/-- Poison rows of an SE-M operation (R188): one still to be written, or in the write path, carries `POISON` to the banks; a `TMERGE`
result already there is written again from the one it keeps. -/
def Blk.poisonRows (b : Blk) (m : SemOp) (p : MRow → Bool) : Blk :=
  let hit (w : RowWrite) : Bool := w.op == m.op && m.rows.any (fun r => p r && r.slot == w.slot && r.row == w.row)
  let again (r : MRow) : Bool := r.done && r.result.isSome && (b.op? m.op).any (fun o => o.d.opc == 0x32)
  { b with writes := b.writes.map (fun w => if hit w then { w with sb := poisonSb w.sb } else w) }.setSem { m with
    rows := m.rows.map (fun r =>
      if !p r then r
      else if again r then { r with poison := true, ready := some b.tick.wall, done := false }
      else { r with poison := true }) }

/-! ### Completion -/

/-- A `TROUTE` or `TRETURN` completes when its close beat is taken and its last row is in the banks (R193, R196). -/
def Blk.semComplete (b : Blk) (id : Nat) : Blk :=
  match b.op? id, b.sems.find? (fun m => m.op == id) with
  | some o, some m =>
    if !m.closedAll || b.writes.any (fun w => w.op == id) || m.rows.any (fun r => !r.done) || o.d.opc = 0x32 then b
    else if o.d.opc = 0x31 then
      let total := (m.drops.map (fun c => c.2)).sum
      let b1 := (b.setRec K.BUCKET_DROPS ((List.range 128).flatMap (fun x => leBytes 4 (Tab.get (fun _ => 0) m.drops x)))).count
        K.ROUTE_DROPS total
      (b1.endWrites o false false).endSem o
    else
      let b1 := m.uses.foldl (fun b u =>
        let t := b.tile u.1
        if u.2.2.2 && t.gen == o.genOf u.1 then b.aniseUse u.1 t.scaleSlot t.shape u.2.1 u.2.2.1 u.2.2.1.overflow else b) b
      (b1.endWrites o false false).endSem o
  | _, _ => b

/-- Every SE-M operation of which nothing is left completes (R200). -/
def Blk.semSettle (b : Blk) : Blk := b.sems.foldl (fun b m => b.semComplete m.op) b

/-- A row of an SE-M operation has reached the banks. -/
def Blk.semRowDone (b : Blk) (id slot row : Nat) : Blk :=
  match b.sems.find? (fun m => m.op == id) with
  | none => b
  | some m => (b.setSem { m with rows := m.rows.map (fun r =>
      if r.slot = slot ∧ r.row = row ∧ r.ready = none then { r with done := true } else r) }).semComplete id

/-! ### Taking SE-M beats -/

/-- An SE-M operation may be granted `WRB` now: a round, `SE-M` in service, and the operation is active, released in an earlier cycle
and heads its queue; no open write is granted while a held scrub is pending (04_banks.md R95). -/
def Blk.semOpen (b : Blk) (o : Op) (m : SemOp) : Bool :=
  b.roundNow 5 && !b.epOut 4 && m.live && b.isHead o && decide (o.releasedAt ≤ b.tick.wall) && b.heldCfg.isEmpty

/-- A refused cycle (R187); a contribution that is refused past its deadline is hold cause bit 2. -/
def Blk.refuse (b : Blk) (o : Op) : Blk :=
  let b1 := b.count K.MERGE_STALLS
  let late := decide (o.d.deadline < b.tick.lcyc) || decide (o.tick ≠ b.tick.tick)
  if o.d.opc = 0x32 && late && o.d.deadline != 0x1FFFFF then { b1 with refused := some o.id } else b1

/-- `b1`, in which a beat is taken that left `b`: none where that needs a buffer row and none is free (R187). -/
def Blk.fits (b b1 : Blk) : Option Blk := if 1024 < b1.bufUsed && decide (b.bufUsed < b1.bufUsed) then none else some b1.notePeak

/-- A contribution beat of a `TMERGE` (R182, R187, R188); none: it is refused. `err`: a check inside Doluo fails for it. -/
def takeContribution (b : Blk) (o : Op) (m : SemOp) (bt : Beat) (err : Bool) : Option Blk :=
  let shard := fieldAt bt.sb 100 2 % 4096
  let row := (byteAt bt.sb 104).toNat
  let lsc := b.cfg K.LSC
  let slot := o.d.slot
  let n := elemsPerRow (shFmt o.dstShape) (shRB o.dstShape)
  let eqs := List.range (ceilDiv (4 * n) 256)
  let b0 := { b with refused := if b.refused = some o.id then none else b.refused }
  let (b1, sBad) := checkStamp b0 true 4 5 none bt
  if sBad then some b1
  else if (b1.tile slot).gen ≠ o.genOf slot then some (b1.count K.STALE_BEATS)
  else
    match m.rows.find? (fun r => r.row == row) with
    | none => some (b1.semFault K.MERGE_ORDER_FAULTS 0x0601 slot bt (if lsc ≤ shard then 1 else 2) shard row)
    | some r =>
      if lsc ≤ shard || r.leaves.any (fun l => l.1 == shard) || m.closed.any (fun c => decide (c.1 ≤ shard) && decide (shard ≤ c.2))
      then
        let kind := if lsc ≤ shard then 1 else if r.leaves.any (fun l => l.1 == shard) then 3 else 4
        some ((b1.poisonRows m (fun x => x.row == row)).semFault K.MERGE_ORDER_FAULTS 0x0601 slot bt kind shard row)
      else
        let (b2, k) := checkBeat b1 true 4 5 eqs
          (fun q => elemQuarters (shFmt o.dstShape) (64 * q) (min 64 (n - 64 * q))) bt
        let r1 := { r with
          leaves := Tab.set (fun _ => []) r.leaves shard ((unpackElems 0 256 k.data).take n), poison := r.poison || k.bad || err,
          invQ := r.invQ ++ k.invQ, invSb := r.invSb || k.invSb, tag := fieldAt bt.sb 72 4 }
        b.fits (((b2.countRsvd bt.sb 16).setSem (m.setRow r1)).evalMerge o slot row m.closed r true)

/-- A shard close beat (R185, R188). -/
def takeShardClose (b : Blk) (o : Op) (m : SemOp) (bt : Beat) : Blk :=
  let a := fieldAt bt.sb 100 2
  let c := fieldAt bt.sb 102 2
  if c < a || b.cfg K.LSC ≤ c then
    (b.poisonRows m (fun _ => true)).semFault K.MERGE_ORDER_FAULTS 0x0601 o.d.slot bt 5 a 0
  else
    let m1 := { m with closed := m.closed ++ [(a, c)], closedAll := covered (m.closed ++ [(a, c)]) 0 (b.cfg K.LSC) }
    (m.rows.foldl (fun b r => b.evalMerge o r.slot r.row m.closed r false) (b.setSem m1)).notePeak

/-- Is the route key below the previous one (R191, R194)? -/
def routeBelow (prev cur : Nat × Nat × Nat) : Bool :=
  let p := BitVec.ofNat 64 prev.1
  let c := BitVec.ofNat 64 cur.1
  stampBefore c p || (c == p && (decide (cur.2.1 < prev.2.1) || (cur.2.1 == prev.2.1 && decide (cur.2.2 < prev.2.2))))

/-- A route row enters the write path on the fast path (R192). -/
def Blk.writeRoute (b : Blk) (o : Op) (bt : Beat) (slot row : Nat) (zero dropped err : Bool) : Blk :=
  let shape := (b.tile slot).shape
  let qs := List.range (shQuarters shape)
  let (b1, k) := checkBeat b true 4 5 qs (fun q => [q]) bt
  (b1.countRsvd bt.sb 16).putWrite
    { wid := 0, kind := .row, op := o.id, slot := slot, row := row, gen := o.genOf slot, quarters := qs,
      payload := if zero then [] else k.data,
      sb := storedSb (slice bt.sb 0 64) b.stamp (fieldAt bt.sb 72 4) (fieldAt bt.sb 80 2) (fieldAt bt.sb 83 2)
        (rflags true (k.bad || err) false dropped false false false),
      invQ := k.invQ, invSb := k.invSb, due := b.tick.wall + 14, wallDue := true, stamp := b.stamp }

/-- Index fault of a route or return beat (R192, R196). -/
def Blk.semIndexFault (b : Blk) : Blk := (b.count K.SEM_INDEX_FAULTS).event 0x0604 1 255

/-- A route beat (R192 to R194). -/
def takeRoute (b : Blk) (o : Op) (m : SemOp) (bt : Beat) (err : Bool) : Blk :=
  let x := fieldAt bt.sb 102 2 % 128
  let rho := fieldAt bt.sb 100 2
  let tag := fieldAt bt.sb 72 4
  let t := tag % 2 ^ 24
  let key := (bt.stamp.toNat, t, bits tag 27 24)
  let (b1, sBad) := checkStamp b true 4 5 none bt
  if sBad then b1
  else if m.prevKey.any (fun p => routeBelow p key) then
    b1.semFault K.ROUTE_ORDER_FAULTS 0x0602 255 bt 6 (bits tag 27 24) 0
  else
    let m1 := { m with prevKey := some key }
    let b2 := b1.setSem m1
    if o.d.nexp ≤ x then b2.semIndexFault
    else if rho < o.d.cap then
      let slot := o.d.slot + x * o.d.bktTiles + rho / 64
      let row := rho % 64
      if m.claimed.contains (slot, row) then (b2.count K.ROUTE_COLLISIONS).event 0x0603 1 slot
      else (b2.setSem { m1 with claimed := (slot, row) :: m.claimed }).writeRoute o bt slot row false false err
    else
      let b3 := b2.setSem { m1 with drops := Tab.set (fun _ => 0) m.drops x (Tab.get (fun _ => 0) m.drops x + 1) }
      if o.d.resTiles ≤ t / 64 then b3.semIndexFault
      else b3.writeRoute o bt (o.d.resBase + t / 64) (t % 64) (!o.d.opf) true err

/-- A return beat (R196 to R199); none: it is refused. -/
def takeReturn (b : Blk) (o : Op) (m : SemOp) (bt : Beat) (err : Bool) : Option Blk :=
  let tag := fieldAt bt.sb 72 4
  let t := tag % 2 ^ 24
  let c := bits tag 27 24
  let slot := o.d.slot + t / 64
  let row := t % 64
  let expected := if bt.stamp.toNat = fieldAt bt.sb 64 8 then none else some (BitVec.ofNat 64 (fieldAt bt.sb 64 8))
  let (b1, sBad) := checkStamp b true 4 5 expected bt
  if sBad then some b1
  else if o.d.dstTiles ≤ t / 64 then some b1.semIndexFault
  else
    let tile := b.seenTile slot
    let ep := fieldAt bt.sb 80 2
    let age := tickDiff b.stamp bt.stamp
    let discard (kind counter : Nat) : Option Blk :=
      let now := b.tile slot
      let b2 := { b1 with tiles := Tab.set (fun _ => ({} : Tile)) b1.tiles slot { now with maceDisc := min (now.maceDisc + 1) 65535 } }
      some ((b2.count counter).maceTrace slot kind tag)
    if ep ≠ tile.epoch then discard 1 K.MACE_EPOCH_DISCARDS
    else if age < 0 || (b.cfg K.MAX_RETURN_AGE : Int) < age then discard 2 K.MACE_AGE_DISCARDS
    -- the epoch has been raised in this cycle: a leaf that passes Mace now is purged with the others (R200, R203)
    else if ep ≠ (b.tile slot).epoch then discard 3 K.MACE_PURGED
    else
      let blank : MRow := { slot := slot, row := row, tag := t, epoch := ep }
      let r := (m.rows.find? (fun r => r.slot == slot && r.row == row)).getD blank
      let m0 := if m.rows.any (fun r => r.slot == slot && r.row == row) then m else { m with rows := m.rows ++ [blank] }
      if o.d.choices ≤ c || r.leaves.any (fun l => l.1 == c) then
        some ((b1.poisonRows (if r.done then m else m0) (fun x => !r.done && x.slot == slot && x.row == row)).semFault
          K.MERGE_ORDER_FAULTS 0x0601 slot bt (if o.d.choices ≤ c then 7 else 3) c row)
      else
        let (b2, k) := checkBeat b1 true 4 5 (List.range (shQuarters tile.shape)) (fun q => [q]) bt
        -- a lone leaf is stored as received: its values are not used, one of them stands for it
        let codes := if o.d.choices = 1 then [0] else (decodeRow tile.shape k.data bt.sb).map toFp32
        let r1 := { r with
          leaves := Tab.set (fun _ => []) r.leaves c codes, single := some { bt with data := k.data },
          poison := r.poison || k.bad || err, invQ := r.invQ ++ k.invQ, invSb := r.invSb || k.invSb }
        let b3 := b2.countRsvd bt.sb 16
        let all := r1.leaves.length == o.d.choices
        let h := foldRun (r1.leaves.map (fun l => l.1)) - 1 - (foldRun (r.leaves.map (fun l => l.1)) - 1)
        let (ts, b4) := b3.addRow h
        let r2 := { r1 with adds := r.adds ++ ts.drop 1 }
        b.fits (if !all then b4.setSem (m0.setRow r2)
          else if h ≤ 1 && !b.adderBusy then (b4.setSem (m0.setRow { r2 with result := some [] })).writeReturn o r2 14
          else b4.setSem (m0.setRow { r2 with ready := some (readyAt b.tick.wall ts) }))

/-- A row of a `TRETURN` at its close (R198): with a leaf it finalises. -/
def Blk.closeRow (b : Blk) (r : MRow) : Blk × MRow :=
  if r.done || r.ready.isSome || r.result.isSome then (b, r)
  else if r.leaves.isEmpty then (b, { r with done := true })
  else
    let (ts, b1) := b.addRow (r.leaves.length - 1 - (foldRun (r.leaves.map (fun l => l.1)) - 1))
    (b1, { r with adds := r.adds ++ ts, ready := some (readyAt b.tick.wall ts) })

/-- A return close beat (R198). -/
def takeReturnClose (b : Blk) (o : Op) (m : SemOp) : Blk :=
  let x := m.rows.foldl (fun (x : Blk × List MRow) r => let y := x.1.closeRow r; (y.1, x.2 ++ [y.2])) (b, [])
  (x.1.setSem { m with rows := x.2, closedAll := true }).semComplete o.id

/-- Buffer row `n` meets an uncorrectable error (16_faults.md R371, R375, R379). -/
def Blk.bufferError (b : Blk) (n : Nat) : Blk :=
  let (b1, f) := (b.event 0x0605 2 255).window 128 (some n)
  if f then { b1 with flt := { b1.flt with mergeFailing := true } } else b1

/-- A transfer of the merge unit meets an error inside Doluo: its row result is poisoned (16_faults.md R371, R378). -/
def spoils (e : PathErr) : Bool := e.write || e.buf.isSome

/-- What the block enters for the errors that a transfer of the merge unit meets on `WRB` and in the merge buffer. -/
def Blk.semErrors (b : Blk) (e : PathErr) : Blk :=
  let b1 := if e.write then b.portError 5 else b
  match e.buf with
  | some n => b1.bufferError n
  | none => b1

/-- A granted root write of a ready row (R180). -/
def rootWrite (b : Blk) (o : Op) (m : SemOp) (r : MRow) (err : PathErr) : Blk :=
  let b0 := b.semErrors err
  let r0 := { r with poison := r.poison || spoils err }
  let b1 := b0.setSem (m.setRow { r0 with ready := none, summed := true, result := if o.d.opc = 0x32 then r.result else some [] })
  if o.d.opc = 0x32 then b1.writeMerge o r0 9 else b1.writeReturn o r0 9

/-- Row number of a row of an SE-M operation: counted through the destination slots. -/
def Op.rowNo (o : Op) (r : MRow) : Nat := 64 * (r.slot - o.d.slot) + r.row

/-- An access of `WRB` for this operation meets a port that is not Active (R361). -/
def Blk.semPowered (b : Blk) : Bool := b.active 5

/-- `b1`, unless it writes a row of a group that is not Active: then the operation fails (R361). -/
def Blk.powered (b : Blk) (o : Op) (b1 : Blk) : Blk :=
  match (b1.writes.drop b.writes.length).find? (fun w => !b.active (8 + b.groupOf w.slot w.row)) with
  | some w => (b.openAccessFault o 5 (b.groupOf w.slot w.row) w.slot).failSem o
  | none => b1

/-- What taking an offered data beat does; none: it is refused. The values that its additions read from the merge buffer are part of it. -/
def semTake (b : Blk) (o : Op) (m : SemOp) (bt : Beat) (err : PathErr) : Option Blk :=
  let b1 := b.semErrors err
  match o.d.opc with
  | 0x32 => takeContribution b1 o m bt (spoils err)
  | 0x31 => some (takeRoute b1 o m bt (spoils err))
  | _ => takeReturn b1 o m bt (spoils err)

/-- The slot whose row an `SE-M` data beat names; for one that names none of the operation's, its first. -/
def Op.semSlot (o : Op) (bt : Beat) : Nat :=
  let t := fieldAt bt.sb 72 4 % 2 ^ 24
  let rho := fieldAt bt.sb 100 2
  let s := match o.d.opc with
    | 0x31 => if rho < o.d.cap then o.d.slot + fieldAt bt.sb 102 2 % 128 * o.d.bktTiles + rho / 64 else o.d.resBase + t / 64
    | 0x33 => o.d.slot + t / 64
    | _ => o.d.slot
  if o.dests.any (fun d => d.1 == s) then s else o.d.slot

/-- The parity checks of a record beat (05_ports.md R132): it carries nothing to be stored, and acts as received (log entry 67). -/
def checkRecord (b : Blk) (bt : Beat) : Blk :=
  let fault (b : Blk) (kind : Nat) : Blk := b.beatFault K.EP_PARITY 4 5 kind bt.qen.toNat (some (0x0304, 2))
  let b1 := if sbBad bt then fault b 6 else b
  if stampBad bt then fault b1 7 else b1

/-- Take an `SE-M` record beat, without Sumac (R178). -/
def takeRecord (kind : Nat) (f : Blk → Op → SemOp → Beat → Blk) (bt : Beat) (b : Blk) : Blk :=
  if !b.ticking || b.busLow 4 || b.fenced 5 then b
  else
    let b1 := checkRecord b bt
    match b1.semTarget bt with
    | none => b1.noTarget 4 bt.qen.toNat
    | some (o, m) => if (byteAt bt.sb 96).toNat ≠ kind then b1.noTarget 4 bt.qen.toNat else f b1 o m bt

/-- `SHARD_CLOSE`. -/
def execShardClose (bt : Beat) (s : State) : Host.Outcome State Fault Refusal :=
  .next (s.cyc (fun _ b => takeRecord 2 takeShardClose bt b))

/-- `ROUTE_CLOSE`. -/
def execRouteClose (bt : Beat) (s : State) : Host.Outcome State Fault Refusal :=
  .next (s.cyc (fun _ b => takeRecord 4 (fun b o m _ => (b.setSem { m with closedAll := true }).semComplete o.id) bt b))

/-- `RETURN_CLOSE`. -/
def execReturnClose (bt : Beat) (s : State) : Host.Outcome State Fault Refusal :=
  .next (s.cyc (fun _ b => takeRecord 6 (fun b o m _ => takeReturnClose b o m) bt b))

end Sys2Proof.Machine
end

