-- ==== Sys2Proof/Machine/Targets.lean ====
section
/-! DEFINITION. The service matrix as it stands (12_service_matrix.md): targets, paths, records and responses, locks, and the end of an
access of a service window. -/

namespace Sys2Proof.Machine

/-! ### Targets, paths, masters (R289 to R292) -/

/-- Target, base, size (R290). -/
def mxTargets : List (Nat × Nat × Nat) :=
  [(0, 0, 0x40000), (1, 0x100000, 0x40000), (2, 0x140000, 0x10000), (3, 0x200000, 0x20000), (4, 0x300000, 0x30000),
   (5, 0x400000, 0x10000), (6, 0x500000, 0x40000), (7, 0x600000, 0x10000), (8, 0x1000000, 0x800000), (9, 0x1800000, 0x100000)]

def mxTarget (a : Nat) : Option (Nat × Nat × Nat) :=
  mxTargets.find? (fun t => decide (t.2.1 ≤ a) && decide (a < t.2.1 + t.2.2))

/-- Masters with a read path and with a write path to a target (R291). -/
def mxReaders (t : Nat) : List Nat :=
  match t with
  | 0 => [0, 1, 5] | 1 => [0, 1, 5] | 2 => [0, 1, 2, 5] | 3 => [1, 5] | 4 => [1, 2, 3, 5] | 5 => [1, 2, 5] | 6 => [1, 2, 5]
  | 7 => [1, 2, 3, 5] | _ => [1, 2, 5]

def mxWriters (t : Nat) : List Nat :=
  match t with
  | 0 => [5] | 1 => [1, 2, 5] | 2 => [] | 3 => [1, 5] | 4 => [1, 2, 3, 5] | 5 => [1, 2, 5] | 6 => [4] | 7 => [1, 3, 5] | _ => [1, 2, 5]

/-- Width in bytes of a master, and of a target (R289, R290). -/
def mxWidth (m : Nat) : Nat := match m with | 0 => 8 | 1 => 8 | 2 => 4 | 3 => 32 | 4 => 16 | _ => 4
def targetWidth (t : Nat) : Nat := match t with | 4 => 32 | 6 => 16 | 7 => 4 | 8 => 32 | 9 => 32 | _ => 8

/-- A master is held in reset (R289, R299); `WRSTN` low is a pulse, so M5 is never held. -/
def Blk.mxHeld (b : Blk) (m : Nat) : Bool :=
  b.pins.coldLow || b.lc == .off || (match m with
  | 0 => b.pins.warmLow || b.pins.seqHeld
  | 1 => b.pins.warmLow || b.pins.seqHeld
  | 2 => b.pins.ringLow
  | 5 => false
  | _ => b.pins.warmLow)

/-- The path of a burst (R291). -/
def mxRoute (u : Burst) : Option (Nat × Nat × Nat) :=
  (mxTarget u.addr).filter (fun t => (if u.write then mxWriters t.1 else mxReaders t.1).contains u.master)

/-- Accesses of a master that the matrix has accepted and not answered. -/
def Blk.mxOpen (b : Blk) (m : Nat) : List MxWait := b.mx.waits.filter (fun w => w.burst.master == m && !w.behalf && w.why != 5)

/-- A master gets a path: it is enabled; a change of `MX_MASTER_EN` waits until its outstanding accesses, the records of the trace writer
among them, have completed (R312). -/
def Blk.mxEnabled (b : Blk) (m : Nat) : Bool :=
  match b.mxOpen m, b.flt.trWait with
  | w :: _, _ => w.en
  | [], x :: _ => if m = 4 then !x.off else bit (b.cfg K.MX_MASTER_EN) m
  | [], [] => bit (b.cfg K.MX_MASTER_EN) m

/-- The path of a burst now. A zero-region read of the bridge has one while the region shows the boot ROM, to which R291 gives the bridge a
path (11_sequencer.md R286; DEDUCED, log entry 96); `old`: it reached the matrix no later than the write that set `REMAP`. -/
def Blk.mxRouteNow (b : Blk) (u : Burst) (old : Bool) : Option (Nat × Nat × Nat) :=
  match mxRoute u with
  | some x => some x
  | none => if u.master = 2 && !u.write && !b.pins.remapDone && (old || !b.mx.remapWait) then (mxTarget u.addr).filter (fun t => t.1 == 0) else none

/-! ### Records and responses -/

/-- `MX_ERR_LAST` (R312). -/
def Blk.mxErr (b : Blk) (m t kind a : Nat) : Blk :=
  b.setRec K.MX_ERR_LAST (leBytes 8 b.stamp.toNat ++ [BitVec.ofNat 8 m, BitVec.ofNat 8 t, BitVec.ofNat 8 kind, 0] ++ leBytes 4 a)

/-- A master's last response: 0 okay, 1 error, 2 abort. -/
def Blk.mxResp (b : Blk) (m kind : Nat) (bs : List Byte) : Blk :=
  { b with mx := { b.mx with resp := b.mx.resp.filter (fun r => r.1 != m) ++ [(m, kind, bs)] } }

/-- An error response (R296). -/
def Blk.mxError (b : Blk) (m t kind a : Nat) (bs : List Byte := []) : Blk :=
  ((b.count K.MX_ERR_RESP).mxErr m t kind a).mxResp m 1 bs

/-! ### What a ring request gets (R298; 13_evien.md R318, R322) -/

/-- Node, index and sub-index of a ring request. -/
def ringAddr : Instr → Nat × Nat × Nat
  | .expeditedRead node index sub => (node, index, sub)
  | .expeditedWrite node index sub _ => (node, index, sub)
  | .segmentInitiate node index sub _ _ => (node, index, sub)
  | .segmentFrame node index sub _ _ _ => (node, index, sub)
  | .tileConfig node _ => (node, K.TILE_CONFIG / 256, K.TILE_CONFIG % 256)
  | .aniseSlot node _ => (node, K.ANISE_SLOT / 256, K.ANISE_SLOT % 256)
  | .aniseCkpt node hi _ => (node, K.ANISE_CKPT_LO / 256, K.ANISE_CKPT_LO % 256 + if hi then 1 else 0)
  | .cloveCkpt node _ => (node, K.CLOVE_CKPT / 256, K.CLOVE_CKPT % 256)
  | .fwImageWrite node runtime _ => (node, K.FW_SERVICE / 256, K.FW_SERVICE % 256 + if runtime then 1 else 0)
  | .imageRegionWrite node hi _ => (node, K.IMAGE_LO / 256, K.IMAGE_LO % 256 + if hi then 1 else 0)
  | _ => (0, 0, 0)

/-- The ring request that caused a failed access is answered with an abort code: the one at the head of the bridge's queue, or the open
segmented transfer, which ends. -/
def Blk.ringFail (b : Blk) (code : Nat) : Blk :=
  match b.ring.queue, b.ring.seg with
  | c :: rest, g =>
    let (node, index, sub) := ringAddr c
    let ends := match c with | .segmentFrame _ _ _ _ _ _ => true | _ => false
    { b with ring := { b.ring with queue := rest, seg := if ends then none else g } }.abortReply node index sub code
  | [], some g => { b with ring := { b.ring with seg := none } }.abortReply g.node g.index g.sub code
  | [], none => b

/-- An error response to an access that a master has made; the bridge answers its request with an abort code (R296; 13_evien.md R322). -/
def Blk.mxFail (b : Blk) (m t kind a : Nat) (bs : List Byte := []) : Blk :=
  let b1 := b.mxError m t kind a bs
  if m = 2 then b1.ringFail 0x00040002 else b1

/-! ### Locks (R305, R306) -/

def Blk.lockOf (b : Blk) (t : Nat) : Option (Nat × Nat × Nat) := b.mx.locks.find? (fun l => l.1 == t)

def Blk.unlock (b : Blk) (t : Nat) : Blk := { b with mx := { b.mx with locks := b.mx.locks.filter (fun l => l.1 != t) } }

/-- Break the lock of a target: the record's address, which no rule names, is a free value, and so is its kind where the
owner's own access broke it (log entry 21). -/
def Blk.breakLock (b : Blk) (t : Nat) (kind : Option Nat) : Blk :=
  match b.lockOf t with
  | none => b
  | some (_, owner, _) =>
    let b1 := ((b.noteSet (512 + t)).unlock t).setReg K.MX_LOCK_STATUS (Nat.lor (b.reg K.MX_LOCK_STATUS) (2 ^ t))
    let b2 := { b1 with mx := { b1.mx with owners := Tab.set (fun _ => 0) b1.mx.owners t owner } }
    let k := match kind with | some k => k | none => b2.freeValue % 256
    let b3 := if kind.isNone then b2.takeFree else b2
    (((b3.count K.MX_LOCKS_BROKEN).mxErr owner t k (b3.freeValue % 2 ^ 32)).takeFree).event 0x0902 1 t

/-- A burst of its owner starts at a locked target: any other than the write that ends the sequence breaks the lock at once (R305). -/
def Blk.lockStart (b : Blk) (u : Burst) (t : Nat) : Blk :=
  if !u.write && (b.lockOf t).any (fun l => l.2.1 == u.master) then b.breakLock t none else b

/-- After the last beat of a burst: its owner's write releases the target, and a read with the lock attribute locks it (R305). -/
def Blk.lockEnd (b : Blk) (u : Burst) (t : Nat) : Blk :=
  if u.write then
    if (b.lockOf t).any (fun l => l.2.1 == u.master) then
      { b.unlock t with mx := { (b.unlock t).mx with freed := (t, u.master) :: b.mx.freed } }
    else b
  else if u.lock && u.master != 0 && u.master != 4 then
    { b with mx := { b.mx with locks := b.mx.locks ++ [(t, u.master, b.tick.wall)] } }
  else b

/-- A target that a burst finds occupied: a burst whose last beats have not come, or a window access in progress, holds it. -/
def Blk.targetBusy (b : Blk) (t : Nat) : Bool :=
  b.mx.waits.any (fun w => (w.why == 4 || w.why == 6) && (mxTarget w.burst.addr).any (fun x => x.1 == t))

/-! ### Accesses of the save engine (15_states_power.md R366) -/

/-- Master M3 can access target `t` for the engine now: it has a path, and no other master holds the target. -/
def Blk.engineFree (b : Blk) (t : Nat) : Bool :=
  b.mxEnabled 3 && (b.lockOf t).all (fun l => l.2.1 == 3) && !b.targetBusy t && (b.mxOpen 3).isEmpty

/-- The engine's access of target `t` waits at the matrix, and its timeout runs (R297, R305, R312). -/
def Blk.engineWait (b : Blk) (t : Nat) (write : Bool) : Blk :=
  if b.mx.waits.any (fun w => w.engine) then b
  else
    let base := ((mxTargets.find? (fun x => x.1 == t)).getD (0, 0, 0)).2.1
    let w : MxWait :=
      { burst := { master := 3, write := write, addr := base, size := 32, beats := 1 }, since := b.tick.wall, no := b.mx.no,
        tick := b.tick.tick, en := b.mxEnabled 3, engine := true, why := if b.mxEnabled 3 then 2 else 0 }
    { b with mx := { b.mx with no := b.mx.no + 1, waits := b.mx.waits ++ [w] } }

/-! ### Accesses of a service window (R300 to R304) -/

/-- Replace what the matrix holds of an access. -/
def Blk.setWait (b : Blk) (w : MxWait) : Blk :=
  { b with mx := { b.mx with waits := b.mx.waits.map (fun x => if x.no = w.no then w else x) } }

def Blk.dropWait (b : Blk) (w : MxWait) : Blk := { b with mx := { b.mx with waits := b.mx.waits.filter (fun x => x.no != w.no) } }

/-- The window access whose transfers run now: one at a time. -/
def Blk.svNow (b : Blk) : Option MxWait := b.mx.waits.find? (fun w => w.why == 4)

/-- Requester 15 has nothing more to ask for: its aging and its miss mark start anew on every port (06_sumac.md R139). -/
def Blk.svIdle (b : Blk) : Blk :=
  (List.range 6).foldl (fun b p => let r := b.requester p 15
    if r.aging = 0 && !r.missed then b else b.setRequester p 15 { r with aging := 0, missed := false }) b

/-- A window access ends; a lock that its burst ends or starts follows its last beat. -/
def Blk.endWindow (b : Blk) (w : MxWait) : Blk :=
  let b1 := (b.dropWait w).svIdle
  match mxTarget w.burst.addr with
  | some (t, _, _) => if w.behalf then b1 else b1.lockEnd w.burst t
  | none => b1

/-- Its response, which a master that is gone does not get. -/
def Blk.windowAnswer (b : Blk) (w : MxWait) (bs : List Byte) : Blk := if w.behalf then b else b.mxResp w.burst.master 0 bs

/-- Its error response. -/
def Blk.windowError (b : Blk) (w : MxWait) (kind : Nat) : Blk :=
  let b1 := b.endWindow w
  if w.behalf then b1 else b1.mxFail w.burst.master (((mxTarget w.burst.addr).map (fun x => x.1)).getD 0xFF) kind w.burst.addr

/-- The port of an `SV` transfer: the chosen one, else the next unfenced one of its direction (R301). -/
def Blk.svPort (b : Blk) (write : Bool) : Option Nat :=
  let n := if write then 2 else 4
  let lo := if write then 4 else 0
  let p := (if write then b.cfg K.SV_WR_PORT else b.cfg K.SV_RD_PORT) - lo
  ((List.range n).map (fun i => lo + (p + i) % n)).find? (fun q => !b.fenced q)

/-- The write transfer numbered `wid` has left the write path; `err`: it has written nothing, and the access answers with this error
(R304, R361). -/
def Blk.svLanded (b : Blk) (wid : Nat) (err : Option Nat) : Blk :=
  match b.mx.waits.find? (fun w => w.wid == some wid) with
  | none => b
  | some w =>
    let w1 := { w with wid := none, next := b.tick.wall + 1, gathered := [] }
    match err with
    | some k => b.windowError w1 k
    | none => if w1.jobs.isEmpty then (b.endWindow w1).windowAnswer w1 [] else b.setWait w1

end Sys2Proof.Machine
end

