-- ==== Sys2Proof/Machine/Save.lean ====
section
/-! DEFINITION. The save and restore engine (15_states_power.md R364 to R369): the start of a save or restore, the save image,
and what a restore does with an image. -/

namespace Sys2Proof.Machine

/-! ### The start (R366, R367, R368) -/

/-- Slots of a context that are in use, in ascending order. -/
def Blk.ctxSlots (b : Blk) (ctx : Nat) : List Nat :=
  ((List.range 64).map (fun i => 64 * ctx + i)).filter (fun s => (b.tile s).inUse)

/-- Rows whose `ROW_VALID` bit is set. -/
def validRows (v : BitVec 64) : List Nat := (List.range 64).filter (fun r => v.getLsbD r)

/-- The tile header of R365. -/
def Tile.header (t : Tile) (k : Nat) : List Byte :=
  let st := match t.state with | .loading => 2 | .overflowed => 2 | x => x.code
  let fl := (if t.zread then 1 else 0) + (if t.unrecomp then 2 else 0) + (if t.abandoned then 4 else 0)
  [BitVec.ofNat 8 k, BitVec.ofNat 8 st, BitVec.ofNat 8 fl, BitVec.ofNat 8 t.startRow] ++ leBytes 4 t.shape
  ++ leBytes 8 t.rowValid.toNat ++ leBytes 2 t.epoch ++ leBytes 2 t.scaleSlot ++ [BitVec.ofNat 8 (validRows t.rowValid).length]
  ++ List.replicate 11 0

/-- The Anise range of the saved tiles: first slot and count (R366). -/
def saveRange (anise : Bool) (heads : List (Nat × List Byte)) : Nat × Nat :=
  match heads.map (fun h => fieldAt h.2 18 2) with
  | [] => (0, 0)
  | x :: xs =>
    let lo := xs.foldl min x
    if anise then (lo, xs.foldl max x + 1 - lo) else (0, 0)

/-- Bytes of a save image before it is filled up to a multiple of 32. -/
def saveSize (heads : List (Nat × List Byte)) (count : Nat) : Nat :=
  64 + (heads.map (fun h => 32 + (byteAt h.2 20).toNat * (shRB (fieldAt h.2 4 4) + 72))).sum + 48 * count

/-- Round up to a multiple of `m`. -/
def roundUp (n m : Nat) : Nat := ceilDiv n m * m

/-- Every slot of a context is released as by `TREL`. -/
def Blk.releaseCtx (b : Blk) (ctx : Nat) : Blk :=
  ((List.range 64).map (fun i => 64 * ctx + i)).foldl (fun b s => if (b.tile s).inUse then b.release 0x61 s else b)
    { b with heldCfg := b.heldCfg.filter (fun d => d.slot / 64 != ctx) }

/-- A save or restore ends with `SR_STATUS` `status`: its operation leaves its queue, what it still had on its way to the banks is
dropped, and a tile in hand ends its write (R367). -/
def Blk.srEnd (b : Blk) (status : Nat) : Blk :=
  if b.sr.phase = 0 then b
  else
    let b1 := match b.sr.hand with
      | some x => b.writeEnds 0x61 x.slot x.gen false true
      | none => b
    let b2 := { b1 with writes := b1.writes.filter (fun w => b.sr.isSave || b.sr.op != some w.op) }
    (match b.sr.op.bind b2.op? with | some o => b2.finishOp o | none => b2).endSR status

/-- The engine's own read or write operation, of opcode `opc` on `port`, under requester 14 (06_sumac.md R137), unless a `TSAVE` or
`TREST` has brought one. -/
def Blk.srOp (b : Blk) (opc port : Nat) : Blk :=
  if b.sr.op.isSome then b
  else
    let o : Op :=
      { id := b.opNo, d := { opc := opc, port := port, endpt := 12, slotCycle := 0x1FFFFF, deadline := 0x1FFFFF }, role := .save,
        opn := true, tick := b.tick.tick, releasedAt := b.tick.wall + 1 }
    Blk.enqueue { b with ops := b.ops ++ [o], opNo := b.opNo + 1, sr := { b.sr with op := some o.id } } port 14 o.id

/-- A save takes its tile headers and the list of its rows from the tile status table, which it reads as M3 (R366, step 1;
12_service_matrix.md R305). -/
def Blk.saveTables (b : Blk) : Blk :=
  if b.sr.phase ≠ 2 || !b.sr.tables then b
  else if !b.engineFree 7 then b.engineWait 7 false
  else
    let slots := b.ctxSlots b.sr.ctx
    let heads := slots.map (fun s => (s, (b.tile s).header (s % 64)))
    let size := saveSize heads (saveRange b.sr.anise heads).2
    let b1 := { b with sr := { b.sr with tables := false } }
    if b.sr.limit < roundUp size 1024 then b1.srEnd 4
    else
      let todo := slots.flatMap (fun s => (validRows (b.tile s).rowValid).map (fun r => (s, r)))
      Blk.srOp { b1 with sr := { b1.sr with heads := heads, todo := todo } } 0x60 3

/-- The engine starts: a save reads the tile status table, a restore releases the context. -/
def Blk.srStart (b : Blk) : Blk :=
  let b1 := ({ b with sr := { b.sr with
    phase := 2, late := false, stamp := b.stamp, tables := b.sr.isSave, heads := [], todo := [], rows := [], image := [], parts := 0, tn0 := none,
    pos := 0, left := 0, prev := none, hand := none, scaled := false } }).setReg K.SR_STATUS 2
  if b.sr.isSave then b1.saveTables else (b1.releaseCtx b.sr.ctx).srOp 0x61 5

/-- While the engine is free, the oldest `TSAVE` or `TREST` that heads its queue takes it (R368). -/
def Blk.srNext (b : Blk) : Blk :=
  if b.sr.phase ≠ 0 || !b.ticking then b
  else match b.ops.find? (fun o => (o.d.opc == 0x60 || o.d.opc == 0x61) && o.role == .main && b.isHead o) with
    | none => b
    | some o => { b with sr := { phase := 1, isSave := o.d.opc == 0x60, ctx := o.d.ctx, base := o.d.base, limit := o.d.limit,
                                 anise := o.d.opf, op := some o.id } }.srStart

/-! ### The save image (R364, R365) -/

/-- A row record: `RB` payload bytes and 72 sideband bytes. -/
def rowRecord (rb : Nat) (row : List Byte) : List Byte :=
  let sb := row.drop 1024
  slice row 0 rb ++ slice sb 0 64 ++ slice sb 72 4 ++ slice sb 80 2 ++ [byteAt sb 82 &&& 0xDA, 0]

/-- `NEG_LEVEL`: 0 while no image is valid (11_sequencer.md R282). -/
def Blk.negLevel (b : Blk) : Nat := if b.reg K.IMAGE_STATE = 2 then b.reg K.NEG_LEVEL else 0

/-- The save image behind its header, of what the engine has read, to its full length. -/
def Blk.saveBody (b : Blk) : List Byte :=
  let heads := b.sr.heads
  let (first, count) := saveRange b.sr.anise heads
  let tiles := heads.flatMap (fun h =>
    h.2 ++ (b.sr.rows.filter (fun x => x.1 == h.1)).flatMap (fun x => rowRecord (shRB (fieldAt h.2 4 4)) x.2.2))
  let tail := (List.range count).flatMap (fun i => b.aniseSlot (first + i)) ++ (List.range count).flatMap (fun i => b.cloveSlot (first + i))
  padTo (tiles ++ tail) (roundUp (saveSize heads count) 32 - 64)

/-- The save image of what the engine has read. -/
def Blk.saveImage (b : Blk) : List Byte :=
  let heads := b.sr.heads
  let (first, count) := saveRange b.sr.anise heads
  let total := roundUp (saveSize heads count) 32
  let head (crc : Nat) : List Byte := leBytes 4 0x52534C44 ++ [1, BitVec.ofNat 8 b.sr.ctx, BitVec.ofNat 8 heads.length, if b.sr.anise then 1 else 0]
    ++ leBytes 8 b.sr.stamp.toNat ++ leBytes 4 total ++ leBytes 4 crc ++ leBytes 2 first ++ leBytes 2 count
    ++ leBytes 2 b.negLevel ++ List.replicate 34 0
  let body := b.saveBody
  head (crc32 (head 0 ++ body)) ++ body

/-- Bytes of the image of a save that are known: up to the first record whose row has not been read. -/
def Blk.saveKnown (b : Blk) : Nat :=
  match b.sr.todo with
  | [] => 64 + b.saveBody.length
  | _ :: _ => 64 + ((b.sr.heads.filter (fun h => b.saveBegun h.1)).map (fun h =>
      32 + (b.sr.rows.filter (fun x => x.1 == h.1)).length * (shRB (fieldAt h.2 4 4) + 72))).sum

/-- Beat `j` of the image of a save, once its bytes are known; the header's beat is known last (R366, step 5). -/
def Blk.saveBeat (b : Blk) (j : Nat) : Option (List Byte) :=
  if b.sr.image ≠ [] then some (slice b.sr.image (1024 * j) 1024)
  else if j = 0 || b.saveKnown < 1024 * (j + 1) then none
  else some (slice b.saveBody (1024 * j - 64) 1024)

/-- All rows of a save are read: its image is complete, once M3 has read the Anise and Clove slots (12_service_matrix.md R305). -/
def Blk.saveClosed (b : Blk) : Blk :=
  if b.sr.phase = 2 && b.sr.isSave && !b.sr.tables && b.sr.todo.isEmpty && b.sr.image.isEmpty then
    if (saveRange b.sr.anise b.sr.heads).2 = 0 || b.engineFree 4 then { b with sr := { b.sr with image := b.saveImage } }
    else b.engineWait 4 false
  else b

/-! ### Scrubs (03_tile_registers.md R75) -/

/-- Rows `r0` to `r0 + n - 1` of a slot are written with zeros, sideband included. -/
def scrubRows (s r0 n : Nat) (m : Store × Blk) : Store × Blk :=
  (List.range n).foldl (fun m i =>
    writeRow s (r0 + i) 1024 [0, 1, 2, 3] (List.replicate 1024 0) (List.replicate 128 0) [] false m) m

/-- The scrub of a slot is done. -/
def Blk.scrubbed (b : Blk) (s : Nat) : Blk :=
  { b with tiles := Tab.set (fun _ => ({} : Tile)) b.tiles s { b.tile s with scrubPend := false },
           scrubRow := Tab.set (fun _ => 0) b.scrubRow s 0 }

/-- A pending scrub of a slot, at once. -/
def scrubSlotNow (s : Nat) (m : Store × Blk) : Store × Blk :=
  if (m.2.tile s).scrubPend then let m1 := scrubRows s 0 64 m; (m1.1, m1.2.scrubbed s) else m

/-- Every bank group in service is Active (R361). -/
def Blk.groupsActive (b : Blk) : Bool := ((List.range 64).map (fun r => b.groupOf 0 r)).all (fun g => b.active (8 + g))

/-- The scrubs of a context's slots that a restore in Configured runs at once (R367). -/
def scrubCtx (ctx : Nat) (m : Store × Blk) : Store × Blk :=
  if m.2.lc == .configured && m.2.groupsActive then
    ((List.range 64).map (fun i => 64 * ctx + i)).foldl (fun m s => scrubSlotNow s m) m
  else m

/-! ### A restore (R367) -/

/-- The checks of a tile header (R367, step 3; log entry 82). -/
def headerOk (prev : Option Nat) (h : List Byte) : Bool :=
  let sh := fieldAt h 4 4
  let v := BitVec.ofNat 64 (fieldAt h 8 8)
  let all := rowMask 0 (shRows sh)
  let st := (byteAt h 1).toNat
  decide ((byteAt h 0).toNat < 64) && prev.all (fun p => decide (p < (byteAt h 0).toNat))
  && [0, 2, 3, 5, 6].contains st && decide ((byteAt h 2).toNat < 8) && decide ((byteAt h 3).toNat < 128)
  && shapeOk sh && pairOk (shFmt sh) (shMode sh) && v &&& ~~~all == 0 && (validRows v).length == (byteAt h 20).toNat
  && decide (fieldAt h 18 2 < 4096) && (List.range 11).all (fun i => byteAt h (21 + i) == 0)
  && (!(st == 3 || st == 5) || v == all) && (st != 0 || v == 0)

/-- The checks of the image header (R367, step 2). -/
def imageOk (im : List Byte) : Bool :=
  fieldAt im 0 4 == 0x52534C44 && byteAt im 4 == 1 && decide ((byteAt im 5).toNat < 2) && decide ((byteAt im 6).toNat ≤ 64)
  && decide ((byteAt im 7).toNat < 2) && decide (64 ≤ fieldAt im 16 4) && decide (fieldAt im 24 2 + fieldAt im 26 2 ≤ 4096)
  && decide (fieldAt im 24 2 ≤ 4095) && (List.range 34).all (fun i => byteAt im (30 + i) == 0)

/-- The state a restored tile takes (R367, step 5). -/
def restoredState (code : Nat) : TState :=
  match code with | 2 => .part | 3 => .valid | 5 => .committed | 6 => .damaged | _ => .empty

/-- A restore ends in failure: its context is released again, but for a load fault or an abort (R367). -/
def Blk.restoreFail (b : Blk) (status : Nat) : Blk :=
  let b1 := b.srEnd status
  if status = 5 then b1 else b1.releaseCtx b.sr.ctx

/-- Payload and stored sideband of the next row record of the tile in hand, once its bytes are in (R66, R365). -/
def Blk.nextRecord (b : Blk) (x : SrTile) : Option (List Byte × List Byte) :=
  let rb := shRB (fieldAt x.head 4 4)
  if b.sr.image.length < b.sr.pos + rb + 72 then none
  else
    let rc := slice b.sr.image b.sr.pos (rb + 72)
    let f := (byteAt rc (rb + 70) &&& 0xDA) ||| 1
    some (padTo (slice rc 0 rb) 1024,
      storedSb (slice rc rb 64) b.stamp (fieldAt rc (rb + 64) 4) (fieldAt rc (rb + 68) 2) (fieldAt x.head 18 2) f)

/-- The restore goes on behind that record. -/
def Blk.tookRecord (b : Blk) (x : SrTile) : Blk :=
  { b with sr := { b.sr with pos := b.sr.pos + shRB (fieldAt x.head 4 4) + 72, hand := some { x with rows := x.rows.tail } } }

/-- A tile that was damaged under its restore takes no more writes, and ends it (R370). -/
def Blk.restoreDamaged (b : Blk) (x : SrTile) : Blk :=
  (b.shapeFault 0x61 x.slot (b.tile x.slot).shape 0x0A 0).srEnd 5

/-- The next row record is written at once; a port or group that is not Active ends the restore (R361), a fenced port too (R133). -/
def restoreRow (x : SrTile) (row : Nat) (pay sb : List Byte) (m : Store × Blk) : Store × Blk :=
  let b := m.2
  let g := b.groupOf x.slot row
  if (b.tile x.slot).state = .damaged then (m.1, b.restoreDamaged x)
  else if b.fenced 5 then (m.1, b.srEnd 5)
  else if !b.active 5 || !b.active (8 + g) then
    (m.1, (b.openAccessFault { id := 0, d := { opc := 0x61, endpt := 12 } } 5 g x.slot).srEnd 5)
  else if (b.tile x.slot).gen ≠ x.gen then (m.1, (b.count K.STALE_BEATS).tookRecord x)
  else writeRow x.slot row (shRB (fieldAt x.head 4 4)) [0, 1, 2, 3] pay sb [] false (m.1, (b.setValid x.slot (rowMask row 1)).tookRecord x)

/-- The next tile is configured, and its rows are to come (R367, step 3); its scrub is done before, which needs all groups Active (R361). -/
def restoreTile (m : Store × Blk) : Store × Blk :=
  let h := slice m.2.sr.image m.2.sr.pos 32
  let k := (byteAt h 0).toNat
  let s := 64 * m.2.sr.ctx + k
  let m1 := scrubSlotNow s m
  let b1 := (m1.2.configure 0x61 s (fieldAt h 4 4) (fieldAt h 18 2) (fieldAt h 16 2) (bit (byteAt h 2).toNat 0)).writeIssues 0x61 s 0 false
  let x : SrTile := { slot := s, gen := (b1.tile s).gen, head := h, rows := validRows (BitVec.ofNat 64 (fieldAt h 8 8)) }
  (m1.1, { b1 with sr := { b1.sr with pos := m.2.sr.pos + 32, prev := some k, hand := some x } })

/-- The tile in hand takes the state that its header names (R367, step 5). -/
def Blk.finishTile (b : Blk) (x : SrTile) : Blk :=
  let b1 := { b with sr := { b.sr with hand := none, left := b.sr.left - 1 } }
  let t := b.tile x.slot
  if t.gen ≠ x.gen then b1.writeEnds 0x61 x.slot x.gen false false
  else
    let st := restoredState (byteAt x.head 1).toNat
    let t1 : Tile := { t with writers := t.writers - 1, state := st, startRow := if st = .part then (byteAt x.head 3).toNat else 0 }
    let b2 := b1.setTile 0x61 x.slot { t1 with abandoned := st == .part, unrecomp := bit (byteAt x.head 2).toNat 1 }
    if st = .damaged then b2.slotChanged x.slot else b2

/-- The restore takes Anise and Clove slots (R367, step 6). -/
def Blk.restoresScales (b : Blk) : Bool := b.sr.anise && byteAt b.sr.image 7 == 1

/-- Anise and Clove slots of a restore (R367, step 6); the reserved bytes of a counter read as zero (09_numerics.md R233). -/
def restoreScales (im : List Byte) (pos : Nat) (b : Blk) : Blk :=
  let first := fieldAt im 24 2
  let count := fieldAt im 26 2
  (List.range count).foldl (fun b i =>
    let b1 := (b.restoreAnise (first + i) (slice im (pos + 32 * i) 32)).1
    let b2 := { b1 with mx := { b1.mx with fills := b1.mx.fills.filter (fun f => f.1 != first + i) } }
    b2.setClove (first + i) (slice im (pos + 32 * count + 16 * i) 14 ++ [0, 0])) b

/-- What a restore does next with the bytes that its loads have brought (R367, steps 2 to 6); none: it waits, for bytes, for the banks, or
for the end of the image. `now`: rows are written, and scrubs run, at once. -/
def restoreStep (now : Bool) (m : Store × Blk) : Option (Store × Blk) :=
  let b := m.2
  let im := b.sr.image
  if b.sr.phase ≠ 2 || b.sr.isSave then none
  else if b.sr.pos = 0 then
    if im.length < 64 then none
    else if !imageOk im then some (m.1, b.restoreFail 6)
    else if b.sr.limit < roundUp (fieldAt im 16 4) 1024 then some (m.1, b.restoreFail 4)
    else some (m.1, { b with sr := { b.sr with pos := 64, left := (byteAt im 6).toNat } })
  else match b.sr.hand with
    | some x => match x.rows with
      | [] => if b.writes.any (fun w => b.sr.op == some w.op) then none else some (m.1, b.finishTile x)
      | row :: _ => if now then (b.nextRecord x).map (fun p => restoreRow x row p.1 p.2 m) else none
    | none =>
      if 0 < b.sr.left then
        let h := slice im b.sr.pos 32
        if im.length < b.sr.pos + 32 then none
        else if !headerOk b.sr.prev h then some (m.1, b.restoreFail 6)
        else if (b.tile (64 * b.sr.ctx + (byteAt h 0).toNat)).scrubPend && (!b.groupsActive || !now && b.ticking) then
          (if now then some (m.1, b.srEnd 5) else none)
        else some (restoreTile m)
      else if !b.restoresScales || b.sr.scaled || decide (im.length < b.sr.pos + 48 * fieldAt im 26 2) then none
      else if 0 < fieldAt im 26 2 && !b.engineFree 4 then
        (if b.mx.waits.any (fun w => w.engine) then none else some (m.1, b.engineWait 4 true))
      else some (m.1, let b1 := restoreScales im b.sr.pos b; { b1 with sr := { b1.sr with scaled := true } })

/-- A restore goes on for at most `n` steps. -/
def restoreRun : Nat → Store × Blk → Store × Blk
  | 0, m => m
  | n + 1, m => match restoreStep true m with
    | some m1 => restoreRun n m1
    | none => m

/-- Every part of the image has been taken but its CRC. -/
def Blk.restoreTaken (b : Blk) : Bool :=
  decide (64 ≤ b.sr.pos) && b.sr.hand.isNone && b.sr.left == 0 && (!b.restoresScales || b.sr.scaled)
  && decide (fieldAt b.sr.image 16 4 ≤ b.sr.image.length)

/-- A restore ends (R367, step 7): `fault` says that a terminal fault or an abort ended its loads. -/
def Blk.restoreEnd (b : Blk) (fault : Bool) : Blk :=
  let im := b.sr.image
  let body := slice im 0 20 ++ [0, 0, 0, 0] ++ slice im 24 (fieldAt im 16 4 - 24)
  if b.sr.phase ≠ 2 then b
  else if fault then b.restoreFail 5
  else if !b.restoreTaken || crc32 body ≠ fieldAt im 20 4 then b.restoreFail 6
  else ((b.setReg K.SR_BYTES (fieldAt im 16 4)).setReg K.SR_TILES (byteAt im 6).toNat).srEnd 3

/-! ### The transfers of the image (R366, step 4) -/

/-- Row transfers go on: while ticks run, and while the engine serves; then its beats and rows move in Configured too, where R24 and R352
keep `VALID` and `READY` low and R348, R366 and R367 have a save or restore run (DEDUCED, log entry 101). -/
def Blk.moves (b : Blk) : Bool := b.ticking || b.sr.phase == 2

/-- The commands for the transfers of an image of `beats` beats: transfer, first row, rows. Transfer 0 takes two: the header's beat has one
of its own, the last of a save, the first of a restore (log entry 25). -/
def srParts (isSave : Bool) (beats : Nat) : List (Nat × Nat × Nat) :=
  let body := ((List.range (ceilDiv beats 64)).map (fun k =>
    let first := if k = 0 then 1 else 0
    (k, first, min 64 (beats - 64 * k) - first))).filter (fun p => p.2.2 != 0)
  if isSave then body ++ [(0, 0, 1)] else (0, 0, 1) :: body

/-- Beats of the image as far as the engine knows: a restore knows the header's beat alone before it has checked the header. -/
def Blk.srBeats (b : Blk) : Nat :=
  if b.sr.isSave then ceilDiv (saveSize b.sr.heads (saveRange b.sr.anise b.sr.heads).2) 1024
  else if b.sr.pos = 0 then 1 else ceilDiv (fieldAt b.sr.image 16 4) 1024

/-- All that the engine had to move has been moved. -/
def Blk.srMoved (b : Blk) : Bool :=
  b.sr.phase == 2 && b.ops.all (fun o => o.role != .image)
  && (if b.sr.isSave then !b.sr.image.isEmpty && decide ((srParts true b.srBeats).length ≤ b.sr.parts)
      else b.restoreTaken)

/-- The operation of the next transfer, which names no tile: the slot number lies behind the last slot. -/
def Blk.srNextPart (b : Blk) : Option Op :=
  if b.sr.phase ≠ 2 || b.sr.tables || b.ops.any (fun o => o.role == .image) then none
  else ((srParts b.sr.isSave b.srBeats)[b.sr.parts]?).map (fun p =>
    { id := b.opNo, role := .image, opn := true, tick := b.tick.tick, total := p.2.2, srcGen := 1, dests := [(255, 1)],
      releasedAt := b.tick.wall,
      d := { opc := if b.sr.isSave then 0x60 else 0x61, port := if b.sr.isSave then 3 else 5, endpt := if b.sr.isSave then 9 else 8,
             slot := 255, base := b.sr.base + 65536 * p.1, stride := 1024, start := p.2.1, nrows := p.2.2 } })

end Sys2Proof.Machine
end

