-- ==== Sys2Proof/Machine/Holds.lean ====
section
/-! DEFINITION. What the service thread does whenever something has changed: the hold causes (02_tick.md R42, R126), the
start of row transfers and their command beats (07_rows_in_out.md R154, R156). -/

namespace Sys2Proof.Machine

/-- Rows a scheduled descriptor reads (R42). -/
def rowsRead (d : Desc) : List (Nat × Nat) :=
  if [0x20, 0x21, 0x40, 0x41].contains d.opc then (List.range d.nrows).map (fun i => (d.slot, d.start + i)) else []

/-- The tile a scheduled descriptor writes rows of. -/
def slotWritten (d : Desc) : Option Nat :=
  if d.opc = 0x22 then some d.slot else if isLoop d.opc then some d.dst else none

/-- A scheduled write of the tick program, not suppressed, that has the row in the banks before cycle `c` (R126). -/
def Blk.preValid (st : Store) (b : Blk) (idx c slot row : Nat) : Bool :=
  let p := b.reg K.PROG_NOW
  b.sched.on && (st.program p).any (fun x =>
    x.1 != idx && isScheduled x.2 && slotWritten x.2 == some slot && decide (x.2.start ≤ row)
    && decide (row < x.2.start + x.2.nrows) && !b.sched.suppressed.contains x.1
    && (let as := (accessesOf b (loadShape st b p x.1) x.1 x.2 0).filter (fun a => a.write)
        let last := (as.filter (fun a => x.2.opc != 0x40 || a.rows.any (fun r => r.2.1 == row))).foldl (fun m a => max m a.bank) 0
        decide (last < c) && !as.isEmpty))

/-- Rows that a scheduled descriptor reads and that would hold (R42). -/
def Blk.missing (st : Store) (b : Blk) (idx : Nat) (d : Desc) : Bool :=
  (rowsRead d).any (fun x => b.rowRead x.1 x.2 true == .hold && !b.preValid st idx d.slotCycle x.1 x.2)

/-- `HOLD_CAUSES` (R42). -/
def Blk.holdCauses (b : Blk) : Nat :=
  (if !b.sched.waiting.isEmpty || !b.sched.lagging.isEmpty || !b.heldCfg.isEmpty then 1 else 0)
  + (if b.xfers.any (fun x => x.slackHold && x.faulted.isSome && !x.orphan) then 2 else 0)
  + (if b.refused.isSome then 4 else 0)

/-- Raise or drop `HOLD_OUT` as the causes stand (R42); a hold cause is dropped when its rows are valid. -/
def Blk.holdUpdate (st : Store) (b : Blk) : Blk :=
  let b1 := { b with
    sched := { b.sched with
      waiting := b.sched.waiting.filter (fun x => b.missing st x.1 x.2),
      lagging := b.sched.lagging.filter (fun i => decide (b.sched.next + b.sched.queue.length ≤ i)) } }
  let up := b1.ticking && b1.holdCauses != 0
  if up && b1.tick.holdOut.isNone then
    { b1 with tick := { b1.tick with holdOut := some b1.tick.wall, netFault := false, holdSeen := b1.tick.holdIn } }
  else if !up && b1.tick.holdOut.isSome then { b1 with tick := { b1.tick with holdOut := none, netFault := false } }
  else b1


/-! ### Row transfers: command beats and the command order (R154, R156) -/

/-- The row after the last one of an operation, and its next row. -/
def Op.rowEnd (o : Op) : Nat := o.d.start + o.d.nrows
def Op.nextRow (o : Op) : Nat := o.d.start + o.n

def Blk.setXfer (b : Blk) (x : Xfer) : Blk := { b with xfers := b.xfers.map (fun y => if y.tn = x.tn then x else y) }

/-- The active transfer numbered `tn`. -/
def Blk.xfer? (b : Blk) (tn : Nat) : Option Xfer := b.xfers.find? (fun x => x.tn == tn && !x.orphan)

/-- Put a command beat into the `LS-O` return buffer. -/
def Blk.pushCommand (b : Blk) (o tn : Nat) (sb : List Byte) : Blk :=
  { b with outs := b.outs ++
      [{ endpt := 9, port := 3, op := o, beat := mkBeat [] sb b.stamp 0, due := b.tick.wall, cmd := some tn, opn := true }] }

/-- The sideband of a load, store or resumption command (R154). -/
def commandSb (o : Op) (store resume : Bool) (tn first units : Nat) : List Byte :=
  [if store then 2 else 1, BitVec.ofNat 8 ((if o.d.opf then 1 else 0) + if resume then 2 else 0)] ++ leBytes 2 tn
  ++ leBytes 8 o.d.base ++ leBytes 4 (ofSigned 32 o.d.stride) ++ [BitVec.ofNat 8 first, BitVec.ofNat 8 (o.rowEnd - first),
    BitVec.ofNat 8 units] ++ List.replicate 109 0

/-- `CUNITS` of a transfer: `ROW_UNITS` of its tile; 32 for the engine's image (15_states_power.md R366). -/
def Blk.cUnits (b : Blk) (o : Op) : Nat := if o.role = .image then 32 else shUnits (b.tile o.d.slot).shape

/-- The place at the end of the command order. -/
def Blk.nextOrder (b : Blk) : Nat := b.xfers.foldl (fun m x => max m (x.order.getD 0 + 1)) 1

/-- The current load or store: the oldest in the command order; no load is current while an ended load's
acknowledgement is still to come (R163). -/
def Blk.currentXfer (b : Blk) (store : Bool) : Option Xfer :=
  let blocked := !store && b.xfers.any (fun x => x.orphan && !x.store)
  let live := b.xfers.filter (fun x => x.store == store && !x.orphan && x.order.isSome)
  if blocked then none
  else live.foldl (fun m x => match m with
    | some y => if y.order.getD 0 ≤ x.order.getD 0 then some y else some x
    | none => some x) none

/-- A transfer that heads its queue becomes active while fewer than 16 are (R154, R156). The second command for transfer 0 of the engine's
image resumes it (log entry 25). -/
def Blk.startXfer (b : Blk) (o : Op) : Blk :=
  let row := (o.d.opc == 0x10 || o.d.opc == 0x11) && o.role == .main && b.isHead o
  let ready := (row || o.role == .image) && !o.taken
    && b.xfers.all (fun x => x.op != o.id) && decide ((b.xfers.filter (fun x => !x.orphan)).length < 16)
  if !ready then b
  else
    let store := o.d.opc == 0x11 || o.d.opc == 0x60
    let head := o.role == .image && o.d.base == b.sr.base
    let again := if head then b.sr.tn0 else none
    let x : Xfer := { tn := again.getD b.tnNo, op := o.id, store := store, order := some b.nextOrder, cfirst := o.d.start,
                      lastBeat := b.tick.wall }
    ({ b with
        xfers := b.xfers ++ [x], tnNo := if again.isSome then b.tnNo else (b.tnNo + 1) % 65536,
        sr := if head then { b.sr with tn0 := some x.tn } else b.sr }).pushCommand o.id x.tn
      (commandSb o store again.isSome x.tn o.d.start (b.cUnits o))

/-- The abort command beat of a pre-empted transfer (R154). -/
def Blk.sendAbort (b : Blk) (x : Xfer) : Blk :=
  if x.aborting.isNone || x.abortSent || x.orphan then b
  else (b.setXfer { x with abortSent := true }).pushCommand x.op x.tn ([3, 0] ++ leBytes 2 x.tn ++ List.replicate 124 0)

/-- The engine's next transfer (15_states_power.md R366, step 4). -/
def Blk.srTransfer (b : Blk) : Blk :=
  match b.srNextPart with
  | some o => { b with ops := b.ops ++ [o], opNo := b.opNo + 1, sr := { b.sr with parts := b.sr.parts + 1 } }
  | none => b

/-- The service thread's standing work on row transfers. -/
def Blk.rowService (b : Blk) : Blk :=
  if !b.moves then b
  else
    let b0 := b.srTransfer
    let b1 := b0.xfers.foldl (fun b x => b.sendAbort x) b0
    b1.ops.foldl (fun b o => b.startXfer o) b1

/-- The engine puts a beat of its image into the `LS-O` return buffer (05_ports.md R120): the current store is its own, the store
command has been delivered, and the beat's bytes are known. -/
def Blk.srSend (b : Blk) : Blk :=
  match b.currentXfer true with
  | none => b
  | some x => match b.op? x.op with
    | none => b
    | some o =>
      let j := (o.d.base - b.sr.base) / 1024 + o.nextRow
      let room := decide ((b.outs.filter (fun y => y.opn && y.endpt == 9)).length < 8)
      if o.role ≠ .image || o.taken || !x.delivered || x.aborting.isSome || !room || b.epOut 9 then b
      else match b.saveBeat j with
        | none => b
        | some data =>
          let out : OutBeat := { endpt := 9, port := 3, op := o.id, beat := mkBeat (padTo data 1024) [] b.stamp 15, due := b.tick.wall,
                                 slot := o.d.slot, opn := true }
          let b1 := (b.advanceOp o.id).setXfer { x with lastBeat := b.tick.wall }
          { b1 with outs := b1.outs ++ [out] }

/-- A beat of an image that a load of the engine brought (05_ports.md R120; 15_states_power.md R367, step 2): a discarded one leaves
zeros. After its last beat the load is over. -/
def Blk.srTake (b : Blk) (o : Op) (data : List Byte) : Blk :=
  let b1 := Blk.advanceOp { b with
    sr := { b.sr with image := b.sr.image ++ padTo data 1024 },
    xfers := b.xfers.map (fun x : Xfer => if x.op = o.id then { x with lastBeat := b.tick.wall } else x) } o.id
  if decide (o.n + 1 < o.total) then b1
  else
    let last := b1.xfers.filter (fun x => x.op == o.id && x.aborting.isNone)
    if last.isEmpty then b1 else { b1 with xfers := b1.xfers.filter (fun x => x.op != o.id), ops := b1.ops.filter (fun p => p.id != o.id) }

/-- Ticks end: Configured (15_states_power.md R354). -/
def Blk.toConfigured (b : Blk) : Blk :=
  let b1 := b.stopAll
  { b1 with lc := .configured, sems := [], pins := { b1.pins with stopPend := 0, drainN := 0, drainForced := false } }

/-- A forced drain is over once no row transfer waits for its acknowledgement (R354). -/
def Blk.forcedEnd (b : Blk) : Blk :=
  if b.lc == .draining && b.pins.drainForced && b.xfers.all (fun x => x.orphan) then b.toConfigured else b

/-- A conversion stage that has failed its comparison fails again at its next use (16_faults.md R380). -/
def Blk.stageFails (b : Blk) : Blk :=
  if b.flt.convUsed then { b with flt := { b.flt with convUsed := false } }.cellOut 0x0B02 (b.flt.badConv.getD 0) else b

/-- What follows any change: a failed unit that was used, an SE-M operation of which nothing is left, a waiting save or restore, transfers'
command beats, the end of a forced drain, then the hold causes as they now stand. -/
def Blk.serve (st : Store) (b : Blk) : Blk := ((b.stageFails.semSettle.srNext.saveTables.rowService).forcedEnd).holdUpdate st

end Sys2Proof.Machine
end

