-- ==== Sys2Proof/Machine/Matrix.lean ====
section
/-! DEFINITION. What the service matrix does (12_service_matrix.md): commit units, reads and writes of its targets, arbitration, the
accesses of the service window, timeouts and the resets of its masters. -/

namespace Sys2Proof.Machine

/-- Number of bytes of a burst. -/
def burstLen (u : Burst) : Nat := u.size * u.beats

/-- A burst that a master can make: 1 to 16 naturally aligned beats of its width or a smaller power of two (R292). A write with fewer
bytes than its beats has is one whose last beats have not come (log entry 70). -/
def burstOk (u : Burst) : Bool :=
  decide (u.master < 6) && [1, 2, 4, 8, 16, 32].contains u.size && decide (u.size ≤ mxWidth u.master)
  && decide (1 ≤ u.beats) && decide (u.beats ≤ 16) && u.addr % u.size == 0 && (!u.write || (decide (u.data.length ≤ burstLen u) && u.data.length % u.size == 0))

def Blk.breakLocksOf (b : Blk) (m kind : Nat) : Blk :=
  (b.mx.locks.filter (fun l => l.2.1 == m)).foldl (fun b l => b.breakLock l.1 (some kind)) b

/-- `MX_LOCK_STATUS` and `MX_LOCK_OWNER` as they read (R310). -/
def Blk.lockStatus (b : Blk) : Nat := b.reg K.MX_LOCK_STATUS + b.mx.locks.foldl (fun a l => Nat.lor a (2 ^ (16 + l.1))) 0

def Blk.lockOwners (b : Blk) : Nat :=
  ((List.range 10).map (fun t => (match b.lockOf t with | some l => l.2.1 | none => Tab.get (fun _ => 0) b.mx.owners t) * 8 ^ t)).sum

/-! ### The remap (11_sequencer.md R274, R275) -/

/-- `MAP_CTRL`. -/
def Blk.mapCtrl (b : Blk) : Nat :=
  (if b.pins.remap then 1 else 0) + (if b.pins.remapDone then 2 else 0) + (if b.pins.schedRun then 4 else 0) + 256 * b.pins.bootStep

/-- A write of `MAP_CTRL`: `REMAP` once set stays; the switch is still to come. -/
def Blk.writeMap (b : Blk) (v : Nat) : Blk :=
  if bit v 0 && !b.pins.remap then
    { b with pins := { b.pins with remap := true }, mx := { b.mx with remapWait := true, remapAt := b.tick.wall } }
  else b

/-! ### Commit units (R308) -/

/-- First byte, last byte of a commit unit of target 4 or 5 that holds byte `a` of the target, with its number. -/
def unitAt (st : Store) (t a : Nat) : Option (Nat × Nat × Nat) :=
  if t = 4 then (if a < 131072 then some (a / 32, a / 32 * 32, a / 32 * 32 + 31) else none)
  else match Config.recordAt a with
    | some k => let f := Config.recordFirst k
        some (k, f, f + 7 + ceilDiv (leVal (Mem.read st.dict (f + 4) 4)) 8 * 8)
    | none => none

def Blk.fillOf (b : Blk) (u : Nat) : Option (Nat × Nat) := (b.mx.fills.find? (fun f => f.1 == u)).map (fun f => f.2)

def Blk.setFill (b : Blk) (u : Nat) (f : Option (Nat × Nat)) : Blk :=
  let rest := b.mx.fills.filter (fun x => x.1 != u)
  { b with mx := { b.mx with fills := match f with | some x => (u, x) :: rest | none => rest } }

/-- Set the `COMMIT` bit of a unit as stored. -/
def setCommit (t u : Nat) (c : Bool) (m : Store × Blk) : Store × Blk :=
  let fix (v : Byte) : Byte := (v &&& 0xFE) ||| (if c then 1 else 0)
  if t = 4 then
    let v := m.2.aniseSlot u
    (m.1, m.2.setAnise u (putBytes v 20 [fix (byteAt v 20)]))
  else
    let a := Config.recordFirst u + 3
    let rest := m.2.mx.uncommitted.filter (fun k => k != u)
    ({ m.1 with dict := Mem.write m.1.dict a ((Mem.read m.1.dict a 1).map fix) },
      { m.2 with mx := { m.2.mx with uncommitted := if c then rest else u :: rest } })

/-- The unit's bookkeeping after one target beat that wrote bytes `lo` to `hi` (none: strobes not contiguous). -/
def unitBeat (t master : Nat) (lo hi : Nat) (contiguous : Bool) (m : Store × Blk) : Store × Blk :=
  match unitAt m.1 t lo with
  | none => m
  | some (u, first, last) =>
    let key := if t = 4 then u else 4096 + u
    let f := m.2.fillOf key
    let fill := if !contiguous then none else if lo = first then some (master, hi + 1)
      else if f = some (master, lo) then some (master, hi + 1) else none
    let off := !contiguous || lo == first || fill.isNone
    let full := fill.any (fun x => x.2 == last + 1)
    let m1 := (m.1, m.2.setFill key (if full then none else fill))
    if full then setCommit t u true m1 else if off then setCommit t u false m1 else m1

/-! ### Reading and writing a target -/

/-- Byte of a slot table kept as records of `n` bytes. -/
def tabBytes (get : Nat → List Byte) (n a : Nat) : Byte := byteAt (get (a / n)) (a % n)

/-- The byte at offset `a` of the control registers (R68, R274, R310). -/
def Blk.ctrlByte (b : Blk) (a : Nat) : Byte :=
  if a < 4 then byteAt (leBytes 4 b.mapCtrl) a
  else if 0x100 ≤ a ∧ a < 0x104 then byteAt (leBytes 4 b.lockStatus) (a - 0x100)
  else if 0x104 ≤ a ∧ a < 0x108 then byteAt (leBytes 4 b.lockOwners) (a - 0x104)
  else if 0x110 ≤ a ∧ a < 0x120 then byteAt (b.record K.MX_ERR_LAST 16) (a - 0x110)
  else if 0x1000 ≤ a ∧ a < 0x2000 then byteAt (b.tile ((a - 0x1000) / 32)).word ((a - 0x1000) % 32)
  else 0

/-- `n` bytes from offset `a` of a target but the windows; the record of `EH_COUNT` holds the count as it stands. -/
def readTarget (st : Store) (b : Blk) (t a n : Nat) : List Byte :=
  match t with
  | 0 => if b.pins.remapDone then Mem.read st.prog a n else (List.range n).map (fun i => Config.romByte ((a + i) % 65536))
  | 1 => Mem.read st.prog a n
  | 2 => (List.range n).map (fun i => Config.romByte (a + i))
  | 3 => Mem.read st.dram a n
  | 4 => (List.range n).map (fun i =>
      if a + i < 131072 then tabBytes b.aniseSlot 32 (a + i) else tabBytes b.cloveSlot 16 (a + i - 131072))
  | 5 => (List.range n).map (fun i => if a + i = Config.recordFirst K.EH_COUNT + 8 then BitVec.ofNat 8 (b.reg K.EH_COUNT)
      else Tab.get zeroByte st.dict (a + i))
  | 6 => (List.range n).map (fun i => tabBytes (fun k => padTo (Tab.get (fun _ => []) b.trace k) 32) 32 (a + i))
  | 7 => (List.range n).map (fun i => b.ctrlByte (a + i))
  | _ => []

/-- Replace the strobed bytes of a record. -/
def strobeInto (v : List Byte) (a : Nat) (bs : List (Option Byte)) : List Byte :=
  putBytes v a ((List.range bs.length).map (fun i => ((bs[i]?).getD none).getD (byteAt v (a + i))))

/-- `LOCK_BROKEN` bits of `v` clear, but for one that a lock broken in this cycle has set (14_dictionary.md R351). -/
def Blk.clearLocks (b : Blk) (v : Nat) : Blk :=
  let mask := ((List.range 10).map (fun t => if bit v t && !b.setNow (512 + t) then 2 ^ t else 0)).sum
  b.setReg K.MX_LOCK_STATUS (b.reg K.MX_LOCK_STATUS - Nat.land (b.reg K.MX_LOCK_STATUS) mask)

/-- Write one word of the control registers: `REMAP`, `LOCK_BROKEN`, `DEAD_READ` (R68, R274, R310). -/
def Blk.writeCtrl (b : Blk) (a : Nat) (bs : List (Option Byte)) : Blk :=
  let v (i : Nat) : Nat := match (bs[i]?).getD none with | some x => x.toNat | none => 0
  if a = 0 then b.writeMap (v 0)
  else if a = 0x100 then
    b.clearLocks (v 0 + 256 * (v 1 % 4))
  else if 0x1000 ≤ a ∧ a < 0x2000 ∧ a % 32 = 12 ∧ bit (v 0) 3 then
    let s := (a - 0x1000) / 32
    if b.setNow (128 + s) then b else { b with tiles := Tab.set (fun _ => ({} : Tile)) b.tiles s { b.tile s with deadRead := false } }
  else b

/-- The value of an RW or RW-CFG entry is what its record holds (14_dictionary.md R334): after a beat that touched the
record of entry `k`. A record of an entry that validation has checked no longer matches a valid image (10_descriptors.md R263). -/
def syncRecord (k : Nat) (m : Store × Blk) : Store × Blk :=
  match entryAt k with
  | some e => if (e.acc == .rw || e.acc == .cfg) && (e.typ == .uns || e.typ == .int) then
      let b := m.2.writeReg k (leVal (Mem.read m.1.dict (Config.recordFirst k + 8) e.lo))
      (m.1, if checkedEntry k then b.invalidateImage else b) else m
  | none => m

/-- What a write leaves of an Anise slot that reads `v` before (09_numerics.md R226): the bridge and the save engine restore slots whole
(R231), but for the reserved bits, which read as zero (00_scope.md R6); to any other master only `MARGIN` and `SLOT_MASK` are writable
(R8), and of a `MARGIN` above 31, for which no rule gives a consequence, the low five bits are kept (log entry 80). `flags`: the write
covers `SFLAGS`, which clears `FLUSH_ALARM` (R234). `COMMIT` is the target's own (R308). DEDUCED, log entry 80. -/
def aniseWritten (master : Nat) (flags : Bool) (v w : List Byte) : List Byte :=
  let f := byteAt v 20 &&& if flags then 0xF7 else 0xFF
  if master = 2 || master = 3 then
    putBytes (putBytes w 20 [(byteAt w 20 &&& 0x3E) ||| (f &&& 1), byteAt w 21 &&& 0x0F]) 28 [0, 0, 0, 0]
  else putBytes v 19 [byteAt w 19 &&& 0x1F, (f &&& 0xDF) ||| (byteAt w 20 &&& 0x20)]

/-- What a write leaves of a Clove counter: its reserved bytes read as zero (00_scope.md R6; log entry 80). -/
def cloveWritten (v : List Byte) (bs : List (Option Byte)) : List Byte := slice (strobeInto v 0 bs) 0 14 ++ [0, 0]

/-- One target beat of a write at offset `a` (R293, R308). The fields of `ECC_INJECT` (04_banks.md R109) keep their access codes: [31:24] is
RO, the others are RW-CFG (00_scope.md R8). -/
def writeBeat (master t a : Nat) (bs : List (Option Byte)) (m : Store × Blk) : Store × Blk :=
  let on := (List.range bs.length).filter (fun i => ((bs[i]?).getD none).isSome)
  match on with
  | [] => m
  | i :: _ =>
    let lo := a + i
    let hi := a + (on.getLast?.getD i)
    let st := m.1
    let b := m.2
    match t with
    | 0 => ({ st with prog := Mem.strobe st.prog a bs }, b)
    | 1 => ({ st with prog := Mem.strobe st.prog a bs }, b)
    | 3 => ({ st with dram := Mem.strobe st.dram a bs }, b)
    | 4 => if a < 131072 then unitBeat 4 master lo hi (decide (hi - lo + 1 = on.length))
              (st, b.setAnise (a / 32) (aniseWritten master (on.contains 20) (b.aniseSlot (a / 32)) (strobeInto (b.aniseSlot (a / 32)) (a % 32) bs)))
      else (st, (List.range 2).foldl (fun b h =>
        let k := (a - 131072) / 16 + h
        b.setClove k (cloveWritten (b.cloveSlot k) ((bs.drop (16 * h)).take 16))) b)
    | 5 =>
      let old := Mem.read st.dict a bs.length
      let keep := (List.range bs.length).map (fun j =>
        let x := (bs[j]?).getD none
        match unitAt st 5 (a + j) with
        | some (k, f, _) =>
          if a + j = f + 3 then x.map (fun _ => byteAt old j &&& 1)
          else if k = K.ECC_INJECT && f + 8 ≤ a + j && (a + j = f + 11 || b.lc != .configured) then x.map (fun _ => byteAt old j)
          else x
        | none => x)
      let m1 := unitBeat 5 master lo hi (decide (hi - lo + 1 = on.length)) ({ st with dict := Mem.strobe st.dict a keep }, b)
      match Config.recordAt lo with
      | some k => syncRecord k m1
      | none => m1
    | 6 =>
      let v := strobeInto (padTo (Tab.get (fun _ => []) b.trace (a / 32)) 32) (a % 32) bs
      (st, { b with trace := Tab.set (fun _ => []) b.trace (a / 32) v })
    | 7 => (st, b.writeCtrl a bs)
    | _ => m

/-- The target beats of a burst: aligned offsets with their strobed bytes. -/
def targetBeats (t off : Nat) (bs : List (Option Byte)) : List (Nat × List (Option Byte)) :=
  let w := targetWidth t
  let first := off / w * w
  (List.range (ceilDiv (off - first + bs.length) w)).map (fun k =>
    (first + k * w, (List.range w).map (fun i =>
      let a := first + k * w + i
      if off ≤ a then (bs[a - off]?).getD none else none)))

/-- Writes refused by the state (R299). -/
def Blk.writeRefused (b : Blk) (u : Burst) (t off n : Nat) : Bool :=
  if t ≤ 1 then
    (decide (off < 131072) && b.lc != .boot)
    || (decide (131072 < off + n) && (b.lc != .configured || b.reg K.IMAGE_STATE == 1))
  else t == 4 && u.master != 3 && b.lc != .configured

/-! ### Arbitration (R295) -/

/-- Why a burst that has a path cannot start now (R275, R291, R295, R305); none: it can. `old`: it reached the matrix no later than the write
that set `REMAP`, and completes from the boot ROM. -/
def Blk.mxBlocked (b : Blk) (u : Burst) (old : Bool) : Option Nat :=
  match b.mxRouteNow u old with
  | none => some 0
  | some (t, _, _) =>
    if t = 0 && b.mx.remapWait && !old then some 3
    else if (b.lockOf t).any (fun l => l.2.1 != u.master) then some 2
    else if b.targetBusy t then some 1
    else none

/-- Why a burst that arrives now waits; one of the cycle in which `REMAP` is set completes from the boot ROM (11_sequencer.md R275). -/
def Blk.mxArrival (b : Blk) (u : Burst) : Option Nat :=
  if b.mxEnabled u.master then b.mxBlocked u (b.mx.remapWait && b.tick.wall == b.mx.remapAt) else some 0

/-- Outstanding accesses that the matrix accepts from a master (R289). -/
def mxLimit (m : Nat) : Nat := match m with | 0 => 4 | 1 => 2 | 2 => 1 | 3 => 4 | 4 => 2 | _ => 1

/-- Default master of a target. -/
def mxDefault (t : Nat) : Nat := match t with | 0 => 0 | 2 => 0 | 6 => 4 | _ => 1

/-- The master on which an idle target is parked: its default one, or the last that used it while the default is in reset or disabled. -/
def Blk.parked (b : Blk) (t : Nat) : Option Nat :=
  if !b.mxHeld (mxDefault t) && bit (b.cfg K.MX_MASTER_EN) (mxDefault t) then some (mxDefault t)
  else match Tab.get (fun _ => 0) b.mx.park t with
    | 0 => none
    | m + 1 => some m

/-! ### The service window (R300 to R304) -/

/-- Slot, row and byte within the row of a window address; rows of the sideband window have 128 bytes. -/
def windowAt (t off : Nat) : Nat × Nat × Nat :=
  if t = 8 then (off / 65536, off / 1024 % 64, off % 1024) else (off / 8192, off / 128 % 64, off % 128)

/-- The transfers of a window burst: slot, row, quarter; none for tails and rows at or beyond `ROWS`. -/
def Blk.windowJobs (b : Blk) (t off n : Nat) : List (Nat × Nat × Nat) :=
  let all := (List.range n).map (fun i => let (s, r, k) := windowAt t (off + i); (s, r, if t = 8 then k / 256 else 0))
  let uniq := all.foldl (fun a j => if a.contains j then a else a ++ [j]) []
  uniq.filter (fun j =>
    let x := b.tile j.1
    !x.inUse || (decide (j.2.1 < shRows x.shape) && (t == 9 || decide (256 * j.2.2 < shRB x.shape))))

/-- A row takes window writes (R303). -/
def Blk.windowRow (b : Blk) (s r : Nat) : Bool :=
  let x := b.tile s
  (b.lc == .configured || b.lc == .safe) && x.inUse && decide (r < shRows x.shape) && x.rowValid.getLsbD r

/-- A window write is accepted (R303). -/
def Blk.windowWrites (b : Blk) (t off n : Nat) : Bool :=
  (List.range n).all (fun i => let (s, r, _) := windowAt t (off + i); b.windowRow s r)

/-- The bytes a completed window read returns. -/
def windowBytes (w : MxWait) (t off n : Nat) : List Byte :=
  (List.range n).map (fun i =>
    let (s, r, k) := windowAt t (off + i)
    let q := if t = 8 then k / 256 else 0
    match w.gathered.find? (fun g => g.1 == (64 * s + r) * 4 + q) with
    | some g => byteAt g.2 (if t = 8 then k % 256 else k)
    | none => 0)

/-- The port that serves the next transfer of the window access. -/
def Blk.svNextPort (b : Blk) : Option Nat :=
  match b.svNow with
  | some w => if w.wid.isNone && decide (w.next ≤ b.tick.wall) then b.svPort w.writing else none
  | none => none

/-- A window access that finds every port of its direction fenced gets an error response (R301). -/
def Blk.svSettle (b : Blk) : Blk :=
  match b.svNow with
  | some w => if w.wid.isNone && (b.svPort w.writing).isNone then b.windowError w 6 else b
  | none => b

/-- The read transfer of a window access; the first of a write's pair finds the row as R303 asks, or the access ends there. -/
def svRead (st : Store) (b : Blk) (w : MxWait) (j : Nat × Nat × Nat) (t off n : Nat) (portErr : Bool) (port : Nat) : Blk :=
  let (s, r, q) := j
  let rr := match b.rowRead s r with | .hold => RowRead.zero | x => x
  let d := deliver st b s r [q] rr
  let b1 := if rr = .dead then b.deadRead s else b
  let b2 := b1.eccAccount false b1.stamp d.errs
  let b3 := if portErr then b2.portError port else b2
  let dsb := if portErr then poisonSb d.sb else d.sb
  let w0 := { w with begun := true, next := b.tick.wall + 7 }
  if w.burst.write then
    let (pay, sb, _, _) := readArrays st b s r [q] (shRB (b.tile s).shape)
    b3.setWait { w0 with writing := true, gen := (b.tile s).gen, gathered := [(0, pay), (1, sb)] }
  else
    let key := (64 * s + r) * 4 + q
    let w1 := { w0 with jobs := w.jobs.tail, gathered := w.gathered ++ [(key, if t = 8 then slice d.pay (256 * q) 256 else dsb)] }
    if w1.jobs.isEmpty then (b3.endWindow w1).windowAnswer w1 (windowBytes w1 t off n) else b3.setWait w1

/-- The write transfer of a window access on `port` (R303, R304): its response waits until the row has landed. -/
def svWrite (b : Blk) (w : MxWait) (j : Nat × Nat × Nat) (t off : Nat) (portErr : Bool) (port : Nat) : Blk :=
  let (s, r, q) := j
  let b := if portErr then b.portError port else b
  let x := b.tile s
  if x.gen ≠ w.gen then (b.count K.STALE_BEATS).windowError w 4
  else
    let pay := ((w.gathered.find? (fun g => g.1 == 0)).map (fun g => g.2)).getD []
    let sb := ((w.gathered.find? (fun g => g.1 == 1)).map (fun g => g.2)).getD []
    let row0 := if t = 8 then 65536 * s + 1024 * r else 8192 * s + 128 * r
    let strobed (k : Nat) : Option Byte := if off ≤ row0 + k then (w.burst.data[row0 + k - off]?).getD none else none
    let merged (v : List Byte) (k n : Nat) : List Byte := (List.range n).map (fun i => (strobed (k + i)).getD (byteAt v (k + i)))
    let pay1 := if t = 8 then putBytes (padTo pay 1024) (256 * q) (merged pay (256 * q) 256) else pay
    let sb1 := if t = 8 then sb else merged sb 0 128
    let b1 := b.countRsvd (if t = 8 then [] else sb1) 0
    let stamp := mkStamp b.tick.tick b.tick.lcyc q
    let b2 := b1.putWrite
      { wid := 0, kind := .sv, op := 0, slot := s, row := r, gen := x.gen, quarters := [q], payload := pay1,
        sb := (if portErr then poisonSb else id) (storedSb (slice sb1 0 64) stamp (fieldAt sb1 72 4) x.epoch (fieldAt sb1 83 2) (byteAt sb 82)),
        due := b.tick.wall + 9, wallDue := true, completes := false, stamp := stamp }
    b2.setWait { w with jobs := w.jobs.tail, writing := false, wid := some b1.wNo }

/-- The granted transfer of the window access on `port`: an access fault answers with an error (R361), and so does a write to a row that
R303 does not allow. -/
def svGrant (st : Store) (b : Blk) (port : Nat) (err : PathErr) : Blk :=
  match b.svNow with
  | none => b
  | some w => match w.jobs, mxTarget w.burst.addr with
    | j :: _, some (t, base, _) =>
      let g := b.groupOf j.1 j.2.1
      let banks := (b.tile j.1).inUse
      if !b.active port || (banks && !b.active (8 + g)) then
        ((b.accessFault port g 13 2 j.1).event 0x030A 1 port).windowError w 6
      else if w.writing then svWrite b w j t (w.burst.addr - base) err.write port
      else if w.burst.write && !b.windowRow j.1 j.2.1 then b.windowError w 5
      else svRead st b w j t (w.burst.addr - base) (burstLen w.burst) err.read port
    | _, _ => b

/-! ### Commit units that a burst touches (R308) -/

/-- Keys of the commit units with a byte in `off` to `off + n - 1`. -/
def unitsOf (st : Store) (t off n : Nat) : List Nat :=
  if t = 4 || t = 5 then
    ((List.range n).filterMap (fun i => (unitAt st t (off + i)).map (fun u => if t = 4 then u.1 else 4096 + u.1))).eraseDups
  else []

/-- The fill of each of these units is none. -/
def Blk.dropFills (b : Blk) (us : List Nat) : Blk :=
  { b with mx := { b.mx with fills := b.mx.fills.filter (fun f => !us.contains f.1) } }

/-! ### Bursts (R295, R296) -/

/-- The write beats of a burst reach its target. -/
def writeBurst (u : Burst) (t off : Nat) (m : Store × Blk) : Store × Blk :=
  (targetBeats t off u.data).foldl (fun m x => writeBeat u.master t x.1 x.2 m) m

/-- An access completed on its master's behalf is counted (R307). -/
def Blk.noteBehalf (b : Blk) (u : Burst) : Blk :=
  (b.count K.MX_BURST_COMPLETIONS).mxErr u.master (((mxTarget u.addr).map (fun x => x.1)).getD 0xFF) 10 u.addr

/-- An access whose master is reset, or gets no answer any more (R297, R307): one that its target has started is completed, its last write
beats with every strobe off and its read data discarded; any other has touched nothing. -/
def mxCut (w : MxWait) (m : Store × Blk) : Store × Blk :=
  match mxTarget w.burst.addr with
  | none => (m.1, m.2.dropWait w)
  | some (t, base, _) =>
    if w.why = 4 && w.begun then
      (m.1, (m.2.setWait { w with behalf := true, burst := { w.burst with data := w.burst.data.map (fun _ => none) } }).noteBehalf w.burst)
    else if w.why = 6 then
      let off := w.burst.addr - base
      let m1 := writeBurst w.burst t off (m.1, m.2.dropWait w)
      (m1.1, ((m1.2.dropFills (unitsOf m1.1 t off (burstLen w.burst))).lockEnd w.burst t).noteBehalf w.burst)
    else (m.1, if m.2.svNow.any (fun x => x.no == w.no) then (m.2.dropWait w).svIdle else m.2.dropWait w)

/-- The locks of master `k` stand as `held` again: those that the end of a cut burst has released count as broken (R306). -/
def Blk.relock (b : Blk) (k : Nat) (held : List (Nat × Nat × Nat)) : Blk :=
  { b with mx := { b.mx with locks := b.mx.locks.filter (fun l => l.2.1 != k) ++ held, freed := b.mx.freed.filter (fun f => f.2 != k) } }

/-- A master is reset: its access in progress is completed, its waiting ones are dropped, its locks break (R306, R307), and so do those that its write has
released in this very cycle (R311). -/
def resetMaster (k : Nat) (m : Store × Blk) : Store × Blk :=
  let mine := m.2.mx.waits.filter (fun w => w.burst.master == k && !w.behalf)
  let held := m.2.mx.locks.filter (fun l => l.2.1 == k)
  let freed := (m.2.mx.freed.filter (fun f => f.2 == k && (m.2.lockOf f.1).isNone)).map (fun f => (f.1, k, m.2.tick.wall))
  let m1 := mine.foldl (fun m w => mxCut w m) m
  let b := if k = 4 then { m1.2 with flt := { m1.2.flt with trWait := [] } } else m1.2
  (m1.1, (b.relock k (held ++ freed)).breakLocksOf k 8)

/-- The sequencer is held in reset, and with it M0 and M1 (R299). -/
def holdSequencer (m : Store × Blk) : Store × Blk :=
  if m.2.lc = .safe && !m.2.pins.seqHeld then
    resetMaster 1 (resetMaster 0 (m.1, { m.2 with pins := { m.2.pins with seqHeld := true } }))
  else m

/-- An uncorrectable error of the sequencer (11_sequencer.md R285): Safe, and the sequencer is held in reset (R299). -/
def seqFault (dataRam : Bool) (m : Store × Blk) : Store × Blk :=
  holdSequencer (m.1, (m.2.count K.SEQ_ECC_UE).cellOut 0x0807 (if dataRam then 1 else 0))

/-- A read of `n` bytes from byte `a` of Anise or the dictionary store has met an uncorrectable error: every unit that it touches is
uncommitted from then on (16_faults.md R371; log entry 17). -/
def loseUnits (t a n : Nat) (m : Store × Blk) : Store × Blk :=
  let us := (((List.range n).filterMap (fun i => unitAt m.1 t (a + i))).map (fun x => x.1)).eraseDups
  us.foldl (fun m u => setCommit t u false (m.1, m.2.setFill (if t = 4 then u else 4096 + u) none)) m

/-- What an uncorrectable error that a read has met leaves beside its error response (R285, R371). -/
def readError (u : Burst) (t a : Nat) (m : Store × Blk) : Store × Blk :=
  if t = 4 ∨ t = 5 then loseUnits t a (burstLen u) m else if u.master ≤ 1 then seqFault (t == 3) m else m

/-- A burst that its target takes. `w`: what the matrix keeps of it if it does not end here. -/
def mxPerform (w : MxWait) (m : Store × Blk) : Store × Blk :=
  let u := w.burst
  let n := burstLen u
  match m.2.mxRouteNow u true with
  | none => m
  | some (t, base, size) =>
    let off := u.addr - base
    let held := { w with granted := m.2.tick.wall + 1 }
    let b := { m.2 with mx := { m.2.mx with park := Tab.set (fun _ => 0) m.2.mx.park t (u.master + 1) } }.lockStart u t
    if size < off + n || u.addr / 4096 ≠ (u.addr + n - 1) / 4096 then (m.1, (b.lockEnd u t).mxFail u.master t 3 u.addr)
    else if 8 ≤ t then
      if u.write && !b.windowWrites t off n then (m.1, (b.lockEnd u t).mxFail u.master t 5 u.addr)
      else if (b.svPort false).isNone || (u.write && (b.svPort true).isNone) then (m.1, (b.lockEnd u t).mxFail u.master t 6 u.addr)
      else match b.windowJobs t off n with
        | [] => (m.1, (b.lockEnd u t).mxResp u.master 0 (if u.write then [] else List.replicate n 0))
        | js => (m.1, { b with mx := { b.mx with waits := b.mx.waits ++ [{ held with why := 4, jobs := js }] } })
    else if u.write then
      if b.writeRefused u t off n then (m.1, (b.lockEnd u t).mxFail u.master t 4 u.addr)
      else if u.data.length < n then (m.1, { b with mx := { b.mx with waits := b.mx.waits ++ [{ held with why := 6 }] } })
      else
        let m1 := writeBurst u t off (m.1, b)
        (m1.1, (m1.2.lockEnd u t).mxResp u.master 0 [])
    else
      let bs := readTarget m.1 b t off n
      let ram := t == 1 || t == 3 || (t == 0 && b.pins.remapDone)
      let b1 := (if u.corrected && ram then b.count K.SEQ_ECC_CE else b).lockEnd u t
      let eccT := ram || t == 4 || t == 5
      if w.ecc && eccT then readError u t off (m.1, b1.mxFail u.master t 7 u.addr bs)
      else (m.1, b1.mxResp u.master 0 bs)

/-- Rank of a master (R295). -/
def Blk.mxRank (b : Blk) (m : Nat) : Nat := b.cfg K.MX_PRIO / 16 ^ m % 16

/-- Rank of a waiting access at its target: the parked master is first (R311). -/
def Blk.waitRank (b : Blk) (w : MxWait) : Nat :=
  if (mxTarget w.burst.addr).any (fun t => b.parked t.1 == some w.burst.master) then 0 else b.mxRank w.burst.master + 1

/-- The oldest access of its master. -/
def Blk.mxFirst (b : Blk) (w : MxWait) : Bool :=
  (b.mx.waits.find? (fun x => x.burst.master == w.burst.master && !x.behalf)).any (fun x => x.no == w.no)

/-- The next waiting access that can start: its master's oldest, of the highest rank. -/
def Blk.mxReady (b : Blk) : Option MxWait :=
  (b.mx.waits.filter (fun w => !w.behalf && [1, 2, 3].contains w.why && b.mxFirst w && (b.mxBlocked w.burst (w.why != 3)).isNone)).foldl
    (fun a w => match a with
      | some x => if b.waitRank x ≤ b.waitRank w then some x else some w
      | none => some w) none

/-- A burst that its master holds back is accepted once fewer accesses of it than its limit are outstanding (R289): its timeout starts. -/
def Blk.mxAccept (b : Blk) : Blk :=
  match b.mx.waits.find? (fun w => w.why == 5 && decide ((b.mxOpen w.burst.master).length < mxLimit w.burst.master)) with
  | none => b
  | some w => b.setWait
      { w with since := b.tick.wall, tick := b.tick.tick, en := b.mxEnabled w.burst.master, why := (b.mxArrival w.burst).getD 1 }

/-- Accept and start the accesses that can start now; one for a ring request leaves its place to that request (log entry 72), one of the
save engine to the engine. -/
def mxService : Nat → Store × Blk → Store × Blk
  | 0, m => m
  | n + 1, m =>
    let b := m.2.mxAccept
    match b.mxReady with
    | none => (m.1, b)
    | some w => mxService n (if w.ring || w.engine then (m.1, b.dropWait w) else mxPerform w (m.1, b.dropWait w))

/-- An access of M4 has ended: of the records that wait, the matrix keeps two (R289), and the timeout of the second starts now. -/
def acceptRecord (wall : Nat) (l : List TraceWait) : List TraceWait :=
  l.take 1 ++ ((l.drop 1).take 1).map (fun x => { x with since := wall }) ++ l.drop 2

/-- Trace records that waited are written, in the order in which they were made, while the trace buffer is free for M4. -/
def Blk.traceServe (b : Blk) : Blk :=
  b.flt.trWait.foldl (fun b x =>
    if x.off || b.mx.locks.any (fun l => l.1 == 6) || (b.flt.trWait.head?.map (fun y => y.record)) != some x.record then b
    else { b with flt := { b.flt with trWait := acceptRecord b.tick.wall b.flt.trWait.tail } }.placeRecord x.record false) b

/-- What follows a change at the matrix; the target of the trace buffer is parked on M4 (R295). -/
def State.mxServe (s : State) : State :=
  let m := mxService (2 * s.blk.mx.waits.length) (s.mem, s.blk.traceServe)
  { s with mem := m.1, blk := m.2.traceServe }

/-- `MATRIX_BURST`. -/
def matrixBurst (u : Burst) (ecc : Bool) (s : State) : State :=
  if !burstOk u || s.blk.mxHeld u.master then s
  else
    let b := s.blk
    let mine := b.mx.waits.filter (fun w => w.burst.master == u.master && !w.behalf)
    let why := if decide (mxLimit u.master ≤ (b.mxOpen u.master).length) || mine.any (fun w => w.why == 5) then some 5
      else if mine.isEmpty then b.mxArrival u else some ((b.mxArrival u).getD 1)
    let w : MxWait := { burst := u, since := b.tick.wall, why := why.getD 1, no := b.mx.no, tick := b.tick.tick, ecc := ecc,
                        en := b.mxEnabled u.master }
    let b1 := { b with mx := { b.mx with no := b.mx.no + 1 } }
    match why with
    | some _ => { s with blk := { b1 with mx := { b1.mx with waits := b1.mx.waits ++ [w] } } }
    | none => let m := mxPerform w (s.mem, b1); ({ s with mem := m.1, blk := m.2 } : State).mxServe

def execMatrixBurst (u : Burst) (ecc : Bool) (s : State) : Host.Outcome State Fault Refusal :=
  .next (matrixBurst u ecc s)

/-! ### Timeouts (R297, R298, R306) -/

/-- What a master does about an abort response (R298). A write of the trace writer was that of a record, which has taken its `TR_SEQ`
(16_faults.md R390). -/
def mxAbort (w : MxWait) (m : Store × Blk) : Store × Blk :=
  let b := m.2
  match w.burst.master with
  | 0 => seqFault false m
  | 1 => (m.1, if w.ring then b.ringFail 0x00040001 else b)
  | 2 => (m.1, b.ringFail 0x00040001)
  | 3 => (m.1, b.srEnd 5)
  | 4 => (m.1, { b with flt := { b.flt with trSeq := (b.flt.trSeq + 1) % 2 ^ 32 } }.count K.TRACE_LOST)
  | 5 => (m.1, { b with mx := { b.mx with wrapperAbort := true } })
  | _ => m

/-- The oldest record that waits for the trace buffer is lost to the timeout of M4 (R297, R298). -/
def traceTimeout (b : Blk) : Blk :=
  match b.flt.trWait with
  | [] => b
  | x :: rest =>
    let b1 := { b with flt := { b.flt with trWait := acceptRecord b.tick.wall rest } }
    let b2 := if x.off then b1.count K.MX_DECODE_ERRS else b1
    let b3 := (b2.countIn K.MX_TIMEOUTS 24 16).mxErr 4 (if x.off then 0xFF else 6) (if x.off then 1 else 2) (0x500000 + b.reg K.TRACE_NEXT)
    (b3.mxResp 4 2 []).count K.TRACE_LOST

/-- `MATRIX_TIMEOUT` of a master's oldest access. -/
def matrixTimeout (k : Nat) (s : State) : State :=
  match s.blk.mx.waits.find? (fun w => w.burst.master == k && !w.behalf) with
  | none => if k = 4 then { s with blk := traceTimeout s.blk } else s
  | some w =>
    let t := if w.why = 0 then 0xFF else match mxTarget w.burst.addr with | some x => x.1 | none => 0xFF
    let held := s.blk.mx.locks.filter (fun l => l.2.1 == k)
    let m := mxCut w (s.mem, s.blk)
    let b1 := if w.why = 0 then m.2.count K.MX_DECODE_ERRS else m.2
    let b2 := ((b1.countIn K.MX_TIMEOUTS 24 (4 * k)).mxErr k t (if w.why = 0 then 1 else 2) w.burst.addr).mxResp k 2 []
    let b3 := (b2.relock k held).breakLocksOf k 9
    let m4 := mxAbort w (m.1, b3)
    let b5 := if k = 1 then m4.2.event 0x0901 1 t else m4.2
    ({ s with mem := m4.1, blk := b5 } : State).mxServe

def execMatrixTimeout (master : Nat) (s : State) : Host.Outcome State Fault Refusal := .next (s.ordered (matrixTimeout master s))

/-- The bursts that the owner of a lock has in progress at its target. -/
def Blk.lockBursts (b : Blk) (l : Nat × Nat × Nat) : List MxWait :=
  b.mx.waits.filter (fun w => w.burst.master == l.2.1 && !w.behalf && (w.why == 4 || w.why == 6)
    && (mxTarget w.burst.addr).any (fun x => x.1 == l.1))

/-- A write burst of the owner that was granted in the cycle in which its lock reached `MX_LOCK_MAX` proceeds, and releases the lock
normally (R311). -/
def Blk.lockProceeds (b : Blk) (l : Nat × Nat × Nat) : Bool :=
  (b.lockBursts l).any (fun w => w.burst.write && (decide (l.2.2 + b.cfg K.MX_LOCK_MAX < w.granted) || w.granted == b.tick.wall + 1))

/-- A burst in progress of an owner whose lock breaks is completed, its remaining beats with every strobe off; the owner gets its
response (R306, R307). -/
def finishBurst (w : MxWait) (m : Store × Blk) : Store × Blk :=
  if w.why = 4 then
    (m.1, (m.2.setWait { w with burst := { w.burst with data := w.burst.data.map (fun _ => none) } }).noteBehalf w.burst)
  else
    let m1 := mxCut w m
    (m1.1, m1.2.mxResp w.burst.master 0 [])

/-- `LOCK_TIMEOUT` of a target: the burst that its owner has in progress there is completed (R306). -/
def lockTimeout (target : Nat) (m : Store × Blk) : Store × Blk :=
  match m.2.lockOf target with
  | none => m
  | some l =>
    if m.2.lockProceeds l then m
    else
      let held := m.2.mx.locks.filter (fun x => x.2.1 == l.2.1)
      let m1 := (m.2.lockBursts l).foldl (fun m w => finishBurst w m) m
      (m1.1, (m1.2.relock l.2.1 held).breakLock target (some 9))

def execLockTimeout (target : Nat) (s : State) : Host.Outcome State Fault Refusal :=
  let m := lockTimeout target (s.mem, s.blk)
  .next ({ s with mem := m.1, blk := m.2 } : State).mxServe

/-! ### The remap switch (11_sequencer.md R275) -/

/-- `REMAP_WRITE`. -/
def execRemapWrite (value : Nat) (s : State) : Host.Outcome State Fault Refusal :=
  .next (s.upd (fun _ b => if b.mxHeld 1 then b else b.writeMap value))

/-- An access to the zero region that reached the matrix before the write of `REMAP` is outstanding. -/
def Blk.romOpen (b : Blk) : Bool :=
  b.mx.waits.any (fun w => [1, 2, 6].contains w.why && (mxTarget w.burst.addr).any (fun t => t.1 == 0))

/-- The switch takes place: the boot ROM's jump reaches the service firmware, which runs from now on (R277; log entry 71). -/
def Blk.switchMap (b : Blk) : Blk :=
  let b1 := { b with pins := { b.pins with remapDone := true }, mx := { b.mx with remapWait := false } }
  if b.lc = .boot && b.pins.bootPhase = 2 then b1.setReg K.BOOT_STATUS 2 else b1

/-- `REMAP_SWITCH`: once no access through the zero region is outstanding that completes from the boot ROM. -/
def execRemapSwitch (s : State) : Host.Outcome State Fault Refusal :=
  .next (if s.blk.mx.remapWait && !s.blk.romOpen then (s.upd (fun _ b => b.switchMap)).mxServe else s)

end Sys2Proof.Machine
end

