-- ==== Sys2Proof/Machine/Commit.lean ====
section
/-! DEFINITION. A row reaching the banks (03_tile_registers.md R70, R71), the commit of a tile-commit write, and the recompute
loop (09_numerics.md R216 to R225). -/

namespace Sys2Proof.Machine

/-- The record and the trace of a commit decision (R222, R240; 16_faults.md R389). -/
def Blk.ovfRecord (b : Blk) (o : Op) (slot flags : Nat) : Blk :=
  b.setRec K.OVF_LAST (leBytes 8 b.stamp.toNat ++ leBytes 2 slot ++ [BitVec.ofNat 8 o.d.opc, BitVec.ofNat 8 o.attempt,
    BitVec.ofNat 8 (ofSigned 8 o.sigma), BitVec.ofNat 8 flags, 0, 0])

def Blk.ovfTrace (b : Blk) (kind : Nat) (o : Op) (slot flags : Nat) : Blk :=
  b.traceRec kind 6 (leBytes 2 slot ++ [BitVec.ofNat 8 o.attempt, BitVec.ofNat 8 (ofSigned 8 o.sigma), BitVec.ofNat 8 flags])

/-- The destination of a tile-commit write. -/
def Op.dest (o : Op) : Nat := if o.d.opc = 0x41 then o.d.dst else o.d.slot

/-- Rows a tile-commit write sets valid: those it wrote. -/
def Blk.commitMask (b : Blk) (o : Op) : BitVec 64 :=
  if o.d.opc = 0x32 then
    match b.sems.find? (fun m => m.op == o.id) with
    | some m => m.rows.foldl (fun a r => if r.result.isSome then a ||| rowMask r.row 1 else a) 0
    | none => 0
  else (rowMask o.d.start o.d.nrows) &&& ~~~ (o.skipped.foldl (fun a r => a ||| rowMask r 1) 0)

/-- The replay of an operation ends in its write's commit cycle; the next one starts in the cycle after (R220). -/
def Blk.replayEnds (b : Blk) (id : Nat) : Blk :=
  if b.replayNow = some id then { b with replayNow := none, replayNext := b.tick.lcyc + 1 } else b

/-- The operation of a tile-commit write ends. -/
def Blk.endCommit (b : Blk) (o : Op) : Blk :=
  let b0 := b.replayEnds o.id
  let b1 := { b0 with replayQ := b0.replayQ.filter (fun i => i != o.id) }
  if o.d.opc = 0x32 then b1.endSem o else b1.finishOp o

/-- One use of the destination's Anise slot, as the write commits (R228). -/
def Blk.commitUse (b : Blk) (o : Op) (ovf : Bool) : Blk :=
  let t := b.tile o.dest
  if converts o.d.opc (shFmt o.dstShape) then b.aniseUse o.dest t.scaleSlot o.dstShape o.sigma o.sums ovf else b

/-- The give-up commit (R222, R223). The rows that the write itself wrote become valid; the tile is then committed or partial as all
its valid rows give (log entry 63). -/
def Blk.giveUp (b : Blk) (o : Op) (forced : Bool) : Blk :=
  let slot := o.dest
  let flags := 2 + if forced then 1 else 0
  let b1 := (b.setValid slot (b.commitMask o)).setOp { o with pendingOvf := none }
  let b2 := b1.repin o.srcs
  let t : Tile := { b2.tile slot with unrecomp := true }
  let b3 := if t.writers = 0 then
      let b' := { b2 with tiles := Tab.set (fun _ => ({} : Tile)) b2.tiles slot t }
      b'.setTile 0 slot { t with state := b'.restState slot true }
    else b2.setTile 0 slot t
  let b4 := b3.count K.UNRECOMP_COMMITS
  let b5 := if forced then b4.count K.FORCED_COMMITS else b4
  let b6 := ((b5.ovfRecord o slot flags).ovfTrace 12 o slot flags).firstEvent 129 0x0701 1 slot
  (b6.commitUse o true).endCommit o

/-- The replay group of an operation in the current tick program (R219). -/
def Blk.groupOfOp (st : Store) (b : Blk) (o : Op) : List (Nat × Desc) :=
  let prog := if b.sched.on then st.program (b.reg K.PROG_NOW) else []
  let m := replayMembers prog o.idx o.d
  if m.any (fun x => x.2.opc == o.d.opc) then m else (o.idx, o.d) :: m

/-- Tiles that the read descriptors of a group read. -/
def groupSources (m : List (Nat × Desc)) : List Nat :=
  (m.filter (fun x => x.2.opc == 0x20 || x.2.opc == 0x21 || x.2.opc == 0x41)).map (fun x => x.2.slot)

/-- A descriptor forces the give-up commit of an overflowed write that waits for its replay (R223). -/
def forces (o : Op) (d : Desc) : Bool :=
  (rowsRead d).any (fun x => x.1 == o.dest && decide (o.d.start ≤ x.2) && decide (x.2 < o.d.start + o.d.nrows))
  || (slotWritten d).any (fun s => o.srcs.contains s)

/-- Insert an overflowed write into the replay queue: by commit cycle, then by destination slot (R220). -/
def Blk.joinReplay (b : Blk) (o : Op) : Blk :=
  let before (i : Nat) : Bool := (b.op? i).any (fun p => p.pendingOvf != o.pendingOvf || decide (p.dest ≤ o.dest))
  { b with replayQ := b.replayQ.takeWhile before ++ o.id :: b.replayQ.dropWhile before }

/-- Another attempt of a write is converted with σ lowered (R220, R224): it issues again. -/
def Op.retry (o : Op) (step : Nat) : Op :=
  { o with attempt := o.attempt + 1, sigma := clampInt (o.sigma - step) (-127) 127, sums := {}, n := 0, taken := false,
           poison := [], strip := [] }

/-- Immediate reconversion of a `TMERGE` or an open `TCONV` (R224). -/
def Blk.reconvert (b : Blk) (o : Op) : Blk :=
  let o1 := o.retry (b.cfg K.OVF_STEP)
  let b1 := ((b.setOp o1).writeIssues o.d.opc o.dest 0 true).count K.RECOMPUTES
  let b2 := b1.ovfTrace 11 o1 o.dest 0
  { b2 with sems := b2.sems.map (fun m => if m.op = o.id then { m with rows := m.rows.map (fun r =>
      if r.result.isSome then { r with ready := some b.tick.wall, done := false, summed := false } else r) } else m) }

/-- An overflow at the commit cycle (R216, R218). -/
def Blk.overflow (st : Store) (b : Blk) (o : Op) : Blk :=
  let slot := o.dest
  let group := b.groupOfOp st o
  let first := o.pendingOvf.isNone
  let srcs := if o.d.opc = 0x32 then [] else groupSources group
  let o1 := { o with pendingOvf := some (o.pendingOvf.getD b.tick.lcyc), srcs := srcs }
  let b1 := ((if first then b.count K.OVF_TILES else b).ovfRecord o slot 0).ovfTrace 10 o slot 0
  let b2 := ((b1.setOp o1).repin srcs).endWrites o1 true false
  let b3 := b2.replayEnds o.id
  let none' := shMode o.dstShape = 0 || b.cfg K.OVF_RETRIES = 0 || b.cfg K.RECOMP_RESERVE = 0
    || (o.d.opc = 0x22 && (o.opn || o.d.rgrp = 0)) || b.cfg K.OVF_RETRIES ≤ o.attempt
  if none' then b3.giveUp o1 false
  else if o.opn then b3.reconvert o1
  else if !first then { b3 with replayQ := o.id :: b3.replayQ }
  else
    let prog := if b.sched.on then st.program (b.reg K.PROG_NOW) else []
    if prog.any (fun x => decide (b.sched.next ≤ x.1) && decide (x.1 < b.sched.checked) && isScheduled x.2 && forces o1 x.2)
    then b3.giveUp o1 true
    else b3.joinReplay o1

/-- Every beat of a tile-commit write has reached the banks. -/
def Blk.commitDue (b : Blk) (o : Op) : Bool :=
  tileCommit o.d.opc && o.role != .preload && !b.replayQ.contains o.id && b.writes.all (fun w => w.op != o.id)
  && (if o.d.opc = 0x32 then b.sems.any (fun m => m.op == o.id && m.closedAll && m.rows.all (fun r => r.done)) else o.taken)

/-- The commit decision of a tile-commit write (R216); one whose tile has been damaged, or configured anew, ends (R71, R73). -/
def Blk.tileCommits (st : Store) (b : Blk) (o : Op) : Blk :=
  let slot := o.dest
  let o0 : Op := { o with pendingOvf := none }
  if (b.tile slot).gen ≠ o.genOf slot then (((b.setOp o0).repin o.srcs).endWrites o0 false false).endCommit o
  else if o.sums.overflow then b.overflow st o
  else
    let b1 := (b.setValid slot (b.commitMask o)).setOp o0
    let b2 := (b1.repin o.srcs).endWrites o0 true false
    let again := o.pendingOvf.isSome
    let b3 := if again then (b2.count K.RECOMP_OK).ovfTrace 12 o slot 0 else b2
    (b3.commitUse o again).endCommit o

/-- The commit of an operation, when it is due. -/
def State.commitOp (s : State) (op : Nat) : State :=
  s.cyc (fun st b => match b.op? op with
    | some o => if b.commitDue o then (b.keepSeen (b.tileCommits st o)).serve st else b
    | none => b)

/-- `TILE_COMMIT`. -/
def execTileCommit (op : Nat) (s : State) : Host.Outcome State Fault Refusal := .next (s.commitOp op)

/-- Set `START_ROW` of a slot whose configuration is still that of the transfer, damaged or not (R160, R163). -/
def Blk.startRow (b : Blk) (s gen k : Nat) : Blk :=
  let t := b.tile s
  if t.gen / 2 ≠ gen / 2 then b else { b with tiles := Tab.set (fun _ => ({} : Tile)) b.tiles s { t with startRow := k } }

/-- A load's writes are all in the banks and its ending beat is taken (07_rows_in_out.md R158); after its final row the
transfer is over, and `START_ROW` is the row after it (R67; 17_worked_tick.md R393). `landed`: its last write reaches the banks now, and the
tile is valid, or partial, from the next cycle on (R393). -/
def Blk.settleLoad (b : Blk) (id : Nat) (landed : Bool := false) : Blk :=
  match b.op? id with
  | none => b
  | some o =>
    if o.d.opc ≠ 0x10 || !o.taken || b.writes.any (fun w => w.op == id) then b
    else
      let ends (b : Blk) : Blk := b.endWrites o false false
      let b0 := b.setOp { o with counted := false }
      let b1 := if !o.counted then b else if landed then b0.inNext ends else ends b0
      match b1.xfers.find? (fun x => x.op == id && !x.orphan) with
      | none => b1.finishOp o
      | some x => if decide (o.n < o.total) || x.aborting.isSome then b1
          else ({ b1.startRow o.d.slot (o.genOf o.d.slot) (o.d.start + o.d.nrows) with
            xfers := b1.xfers.filter (fun y => y.tn != x.tn) }).finishOp o

/-- A row write that reaches the banks of its tile as configured. -/
def Blk.rowWritten (b : Blk) (w : RowWrite) : Blk :=
  match b.op? w.op with
  | some o => if w.kind = .row && w.completes && !tileCommit o.d.opc then b.setValid w.slot (rowMask w.row 1) else b
  | none => b

/-- What a row write's end means to its operation; `err`: why a window write has written nothing. -/
def Blk.afterWrite (b : Blk) (w : RowWrite) (err : Option Nat := none) : Blk :=
  if w.kind = .sv then b.svLanded w.wid err
  else
    let b1 := { b with xfers := b.xfers.map (fun x : Xfer =>
      if x.op = w.op ∧ x.faulted = some w.row ∧ !x.store then { x with faulted := none } else x) }
    ((b1.settle w.op).settleLoad w.op true).semRowDone w.op w.slot w.row

/-- A `TRETURN` result whose epoch is no longer the tile's is discarded at its bank cycle (R200). -/
def Blk.discardReturn (b : Blk) (w : RowWrite) (n : Nat) : Blk :=
  let t := b.tile w.slot
  let b1 := { b with
    tiles := Tab.set (fun _ => ({} : Tile)) b.tiles w.slot { t with maceDisc := min (t.maceDisc + n) 65535 },
    sems := b.sems.map (fun m : SemOp => if m.op = w.op then
      { m with rows := m.rows.filter (fun r => r.slot != w.slot || r.row != w.row) } else m) }
  (List.range n).foldl (fun b _ => b.maceTrace w.slot 4 (fieldAt w.sb 72 4)) (b1.count K.MACE_PURGED n)

/-- A `TRETURN` row whose sum overflowed commits saturated (R225). -/
def Blk.rowOverflow (b : Blk) (w : RowWrite) : Blk :=
  if !w.ovf then b
  else
    let b' := b.count K.ROW_OVERFLOWS
    { b' with tiles := Tab.set (fun _ => ({} : Tile)) b'.tiles w.slot { b'.tile w.slot with unrecomp := true } }

/-- The epoch of a row that is written is the tile's as it stands then, but where the beat brings one (R66; 08_route_merge.md R201; log
entry 91). -/
def Blk.landEpoch (b : Blk) (w : RowWrite) : RowWrite :=
  if w.kind == .sv || (b.op? w.op).any (fun o => [0x10, 0x22, 0x32, 0x40, 0x41].contains o.d.opc) then
    { w with sb := putBytes w.sb 80 (leBytes 2 (b.tile w.slot).epoch) }
  else w

/-- An open operation without a row transfer, a preload or a gather fails. -/
def Blk.failOther (b : Blk) (o : Op) : Blk :=
  if o.d.opc = 0x60 || o.d.opc = 0x61 then (if b.sr.op = some o.id then b.srEnd 5 else b.finishOp o)
  else if [0x31, 0x32, 0x33].contains o.d.opc then b.failSem o
  else b.failOp o

/-- A write meets in its bank cycle a group that is not Active, and does not reach the arrays (04_banks.md R96; 15_states_power.md R361): a
scheduled one is a missed beat whose row stays not valid, an open one fails its operation or pre-empts its transfer, a window access answers
with an error. -/
def Blk.unpowered (b : Blk) (w : RowWrite) : Blk :=
  let g := b.groupOf w.slot w.row
  match b.op? w.op with
  | none =>
    let p := (b.svPort true).getD 0xFF
    if w.kind = .sv then ((b.accessFault p g 13 2 w.slot).event 0x030A 1 p).afterWrite w (some 6) else b
  | some o =>
    let loop := isLoop o.d.opc
    let p := if loop then o.d.wport else o.d.port
    let e := if loop then 14 else o.d.endpt
    if !o.opn then
      let b1 := ((b.accessFault p g e 1 w.slot).event 0x030B 2 p).beatFault K.MISSED_BEATS e p 2 0 (some (0x0302, 2))
      (b1.setOp { o with skipped := w.row :: o.skipped }).afterWrite w
    else match b.xfers.find? (fun x => x.op == o.id && !x.orphan) with
      | some x => (if x.aborting.isSome then b else (b.openAccessFault o p g w.slot).abortXfer x.tn 3).afterWrite w
      | none => (b.openAccessFault o p g w.slot).failOther o

/-- A row write leaves the write path. -/
def rowLands (s : State) (w0 : RowWrite) : State :=
  let b := { s.blk with writes := s.blk.writes.filter (fun x => x.wid != w0.wid) }
  let t := b.tile w0.slot
  if t.gen ≠ w0.gen then { s with blk := (b.count K.STALE_BEATS).afterWrite w0 (some 4) }
  else if w0.leaves.isSome && fieldAt w0.sb 80 2 ≠ t.epoch then { s with blk := (b.discardReturn w0 (w0.leaves.getD 0)).afterWrite w0 }
  else if !b.active (8 + b.groupOf w0.slot w0.row) then { s with blk := b.unpowered w0 }
  else
    let w := b.landEpoch w0
    let m := writeRow w.slot w.row (shRB t.shape) w.quarters w.payload w.sb w.invQ w.invSb (s.mem, b)
    { s with mem := m.1, blk := ((m.2.rowWritten w).rowOverflow w).afterWrite w }

/-- The row write in flight with number `wid` reaches the banks; a window write that ends frees its target. -/
def State.writeDone (s : State) (wid : Nat) : State :=
  match s.blk.writes.find? (fun w => w.wid == wid) with
  | some w => s.ordered ((rowLands s w).upd (fun st b => (s.blk.keepSeen b).serve st)).mxServe
  | none => s

/-- The tile of the row write numbered `wid` is damaged: an uncorrectable error in the write (03_tile_registers.md R71). -/
def Blk.writeError (b : Blk) (wid : Nat) : Blk :=
  match b.writes.find? (fun w => w.wid == wid) with
  | some w => if (b.tile w.slot).gen = w.gen then b.damage w.slot else b
  | none => b

/-- `ROW_WRITE_COMPLETE`: a write that meets an uncorrectable error damages its tile, and the beat is discarded as stale. -/
def execRowWriteComplete (w : RowEnd) (s : State) : Host.Outcome State Fault Refusal :=
  .next (if w.ue then s.ordered ((s.upd (fun _ b => b.writeError w.wid)).writeDone w.wid) else s.writeDone w.wid)

/-! ### Replays (R219 to R221) -/

/-- First cycle of `RECOMP_RESERVE`. -/
def Blk.reserveStart (b : Blk) : Nat := b.cfg K.TICK_LEN - b.cfg K.GUARD - b.cfg K.RECOMP_RESERVE

/-- The read members of a group run again from their shifted cycles. -/
def Blk.startFeeds (b : Blk) (m : List (Nat × Desc)) (shift attempt : Nat) : Blk :=
  m.foldl (fun b x =>
    if x.2.opc = 0x20 || x.2.opc = 0x21 then
      let w := b.readShape x.2.slot (x.2.opc == 0x21)
      { b with
        ops := b.ops ++ [
          { id := b.opNo, d := x.2, idx := x.1, role := .replay, tick := b.tick.tick, base := x.2.slotCycle + shift,
            total := accessTotal x.2 w, srcShape := w, attempt := attempt }],
        opNo := b.opNo + 1 }
    else b) b

/-- Start the replay of one overflowed write at cycle `t0`. -/
def Blk.startReplay (b : Blk) (o : Op) (m : List (Nat × Desc)) (t0 first len : Nat) : Blk :=
  let o1 := { o.retry (b.cfg K.OVF_STEP) with role := .replay, tick := b.tick.tick, base := o.d.slotCycle + (t0 - first) }
  let b1 := ((b.setOp o1).writeIssues o.d.opc o.dest 0 true).count K.RECOMPUTES
  let b2 := (b1.ovfTrace 11 o1 o.dest 0).startFeeds m (t0 - first) o1.attempt
  { b2 with replayNow := some o.id, replayNext := t0 + len }

/-- Take entries off the queue until one fits (R220). -/
def Blk.nextReplay (st : Store) (t0 : Nat) : Nat → Blk → Blk
  | 0, b => b
  | fuel + 1, b =>
    match b.replayQ with
    | [] => b
    | id :: rest =>
      let b1 := { b with replayQ := rest }
      match b.op? id with
      | none => nextReplay st t0 fuel b1
      | some o =>
        let m := b.groupOfOp st o
        let (first, len) := groupSpan b (fun s => (b.tile s).shape) m
        if t0 + len ≤ b.cfg K.TICK_LEN - b.cfg K.GUARD then b1.startReplay o m t0 first len
        else nextReplay st t0 fuel (b1.giveUp o false)

/-- A replay may start in this cycle, of an overflow that an earlier one has found. -/
def Blk.replayReady (b : Blk) : Bool :=
  b.moving && b.replayNow.isNone && !b.replayQ.isEmpty
  && (b.replayQ.head?.bind b.op?).all (fun o => o.pendingOvf.all (fun c => decide (c < b.tick.lcyc))) && decide (b.reserveStart ≤ b.tick.lcyc)
  && decide (b.tick.lcyc < b.cfg K.TICK_LEN - b.cfg K.GUARD) && decide (b.replayNext ≤ b.tick.lcyc)

/-- `REPLAY_START`. -/
def execReplayStart (s : State) : Host.Outcome State Fault Refusal :=
  .next (s.cyc (fun st b => if b.replayReady then b.nextReplay st b.tick.lcyc b.replayQ.length else b))

end Sys2Proof.Machine
end

