-- ==== Sys2Proof/Machine/Seq.lean ====
section
/-! DEFINITION. The schedule thread (11_sequencer.md R269, R270): the shape check at issue (03_tile_registers.md R78, R79), the
dependency check and late holds (02_tick.md R42, R44), and the issue or release of every descriptor. -/

namespace Sys2Proof.Machine

/-! ### The shape check (R78, R79) -/

/-- Slots a descriptor reads, and slots it writes, for the shape check; `TCFG` and `TREL` are not write operations
(log entry 16). -/
def checkReads (d : Desc) : List Nat := if readsTile d.opc && d.opc != 0x60 then [d.slot] else []

def checkWrites (d : Desc) : List Nat :=
  match d.opc with
  | 0x10 => [d.slot]
  | 0x22 => [d.slot]
  | 0x32 => [d.slot]
  | 0x51 => [d.slot]
  | 0x31 => (List.range (d.nexp * d.bktTiles)).map (fun i => d.slot + i) ++ (List.range d.resTiles).map (fun i => d.resBase + i)
  | 0x33 => (List.range d.dstTiles).map (fun i => d.slot + i)
  | 0x40 => [d.dst]
  | 0x41 => [d.dst]
  | _ => []

/-- Replace bits `hi` to `lo` of a shape word. A value too large for the field runs on into the bits above it: R79 does not say what
`FREQ` holds where the row count needed has no place in it (log entry 64). -/
def withField (w hi lo v : Nat) : Nat := w - bits w hi lo * 2 ^ lo + v * 2 ^ lo

/-- The lowest format of a list. -/
def lowest (fs : List Nat) : Nat := fs.foldl min 15

/-- One check on one slot: `FREQ` when it fails. Cause 0x04 of a read by fed rows raises `PAD_TO`, also one that is 0 (03_tile_registers.md,
the worked example of R79). Of the two slots that cause 0x02 of a `TCONV`, or cause 0x07, compares, the destination is the one that fails
(DESIGN CHOICE, log entry 88). -/
def Blk.shapeTest (b : Blk) (d : Desc) (cause s : Nat) (w : Bool) : Option Nat :=
  let t := b.tile s
  let sh := t.shape
  let f := shFmt sh
  if cause = 1 then (if w && !t.inUse then some 0 else none)
  else if !t.inUse then none
  else match cause with
  | 2 =>
    if d.opc = 0x30 then (if f = 13 then none else some (withField sh 19 16 13))
    else if d.opc = 0x33 && decide (2 ≤ d.choices) && decide (11 ≤ f) then some (withField sh 19 16 0)
    else if d.opc = 0x41 && w && (b.tile d.slot).inUse then
      let g := shFmt (b.tile d.slot).shape
      if f = g || (decide (f ≤ 12) && decide (g ≤ 12)) then none else some (withField sh 19 16 (if g ≤ 12 then 0 else g))
    else if (epFormats d.endpt d.opc).contains f then none
    else some (withField sh 19 16 (lowest (epFormats d.endpt d.opc)))
  | 3 =>
    match epElemsKey d.endpt with
    | some k => if epRowCheck d.endpt d.opc && shRB sh != elemsBytes f (b.cfg k)
        then some (withField sh 15 8 (ceilDiv (elemsBytes f (b.cfg k)) 32)) else none
    | none => none
  | 4 =>
    if d.opc = 0x30 then
      let per := shRB sh / 2
      if shFed sh * per < d.ifirst + d.nidx then
        let need := ceilDiv (d.ifirst + d.nidx) (max 1 per)
        some (withField sh 31 24 need)
      else none
    else if [0x10, 0x11, 0x20, 0x21, 0x22, 0x32, 0x40, 0x41, 0x50, 0x51].contains d.opc then
      let need := d.start + d.nrows
      if w || d.opc = 0x11 then (if shRows sh < need then some (withField sh 7 0 need) else none)
      else if shFed sh < need then some (withField sh 31 24 need) else none
    else none
  | 5 => if d.opc = 0x21 && fmtBits f != 8 && fmtBits f != 16
      then some (withField sh 19 16 (lowest ((epFormats d.endpt 0x20).filter (fun f => fmtBits f == 8 || fmtBits f == 16)))) else none
  | 6 => if d.opc = 0x21 && shFed sh % 32 != 0 then some (withField sh 31 24 (ceilDiv (shFed sh) 32 * 32)) else none
  | 7 =>
    let o := b.tile d.slot
    if isLoop d.opc && w && o.inUse && (shRows o.shape != shRows sh
        || elemsPerRow (shFmt o.shape) (shRB o.shape) != elemsPerRow f (shRB sh)) then some o.shape else none
  | 8 => if w && t.pinned then some 0 else none
  | 10 => if w && t.state = .damaged then some 0 else none
  | 11 => if w && decide (7 ≤ t.writers) then some 0 else none
  | _ => none

/-- The first check that fails: cause, slot, `FREQ`. -/
def Blk.shapeCheck (b : Blk) (d : Desc) : Option (Nat × Nat × Nat) :=
  let named := (checkReads d).map (fun s => (s, false)) ++ (checkWrites d).map (fun s => (s, true))
  [1, 2, 3, 4, 5, 6, 7, 8, 10, 11].findSome? (fun c => named.findSome? (fun x => (b.shapeTest d c x.1 x.2).map (fun q => (c, x.1, q))))

/-- `DEPENDENCY_CHECK` of descriptor `idx`: issue lag (R270), forced commits (R223), missing rows. -/
def dependencyCheck (st : Store) (b : Blk) (idx : Nat) : Blk :=
  match st.desc (b.reg K.PROG_NOW) idx with
  | none => b
  | some d =>
    if !b.moving || !b.sched.on || !isScheduled d || idx < b.sched.checked then b
    else
      let entered := if idx < b.sched.next then some b.tick.wall else b.sched.queue[idx - b.sched.next]?
      let lead := match entered with | some w => b.tick.wall - w | none => 0
      let m := match b.sched.leadMin with | some x => min x lead | none => lead
      let b1 := { b with sched := { b.sched with checked := idx + 1, leadMin := some m } }
      let b2 := if entered.isSome then b1
        else ({ b1 with sched := { b1.sched with lagging := b1.sched.lagging ++ [idx] } }).count K.ISSUE_LAGS
      let b3 := (b2.replayQ.filterMap b2.op?).foldl (fun b o => if forces o d then b.giveUp o true else b) b2
      let b4 := if b3.missing st idx d then { b3 with sched := { b3.sched with waiting := b3.sched.waiting ++ [(idx, d)] } } else b3
      b4.holdUpdate st

/-- `DEPENDENCY_CHECK`. -/
def execDependencyCheck (idx : Nat) (s : State) : Host.Outcome State Fault Refusal :=
  .next (s.cyc (fun st b => dependencyCheck st b idx))

/-- The index of a descriptor that is not the next of the tick program. -/
def noIdx : Nat := 0xFFFF

/-- Late hold (R44): suppress, damage, count, step-replay. A `TCFG` or `TREL` that comes too late from the issue queue counts as a
descriptor that writes its slot (log entry 65). -/
def Blk.lateHold (st : Store) (b : Blk) (idx : Nat) (d : Desc) : Blk :=
  let group := ((if b.sched.on then st.program (b.reg K.PROG_NOW) else []).filter (fun x =>
    x.2.opc == 0x22 && !isOpenDesc x.2 && d.rgrp != 0 && x.2.rgrp == d.rgrp)).map (fun x => x.2.slot)
  let target := match slotWritten d with
    | some s => some s
    | none => if d.opc = 0x01 || d.opc = 0x02 then some d.slot else group.head?
  let b1 := match target with | some s => b.damage s | none => b
  let unit := match target with | some s => s | none => d.slot
  ({ b1 with sched := { b1.sched with suppressed := idx :: b1.sched.suppressed } }.count K.LATE_HOLDS).event 0x0105 2 unit

/-! ### Issue -/

/-- Walk the descriptors not yet issued, from one at position `i` on (10_descriptors.md R250): a scheduled one is due at its slot
cycle, and none behind a later one is; an open one is due in the cycle after the last scheduled one before it, once it is in the
queue. `last`: the logical cycle in which that one issues, or has issued. -/
def walkDue (b : Blk) (last : Option Nat) : List (Nat × Desc) → List (Nat × Desc)
  | [] => []
  | (i, d) :: rest =>
    match b.sched.early.find? (fun e => e.1 == i) with
    | some e => walkDue b (some e.2) rest
    | none =>
      if isScheduled d then
        if d.slotCycle ≤ b.tick.lcyc then (i, d) :: walkDue b (some b.tick.lcyc) rest else []
      else
        let ok := decide (i < b.sched.next + b.sched.queue.length) && last.all (fun c => decide (c < b.tick.lcyc))
        if d.opc = 0x7F then (if ok then [(i, d)] else [])
        else if ok then (i, d) :: walkDue b last rest else walkDue b last rest

/-- A scheduled descriptor in position `i` reaches its slot cycle while a hold condition of it still stands (02_tick.md R44). -/
def Blk.isLate (st : Store) (b : Blk) (i : Nat) (d : Desc) : Bool :=
  isScheduled d && (decide (b.sched.next + b.sched.queue.length ≤ i) || b.missing st i d)

/-- The rank of a descriptor among those of one cycle (03_tile_registers.md R82). -/
def issueRank (st : Store) (b : Blk) (x : Nat × Desc) : Nat :=
  if b.isLate st x.1 x.2 then 0 else match x.2.opc with | 0x02 => 1 | 0x01 => 2 | 0x03 => 3 | _ => 4

/-- The descriptors that issue or are released in this cycle, in the order in which they act. -/
def Blk.dueDescs (st : Store) (b : Blk) : List (Nat × Desc) :=
  if !b.moving || !b.sched.on || b.sched.ended || b.inExt then []
  else sortBy (issueRank st b) (walkDue b b.sched.lastIssue ((st.program (b.reg K.PROG_NOW)).drop b.sched.next))

/-- The place of descriptor `d` in the running tick program: the next one, or one that issues in this cycle too. -/
def Blk.placeOf (st : Store) (b : Blk) (d : Desc) : Option Nat :=
  if !b.sched.on || b.sched.ended then none
  else if st.desc (b.reg K.PROG_NOW) b.sched.next == some d then some b.sched.next
  else ((b.dueDescs st).find? (fun x => x.2 == d)).map (fun x => x.1)

/-- Descriptors from `i` on that have issued already. -/
def runEarly (early : List (Nat × Nat)) (i : Nat) : Nat → Nat
  | 0 => 0
  | n + 1 => if early.any (fun e => e.1 == i) then runEarly early (i + 1) n + 1 else 0

/-- The schedule thread passes descriptor `i`, and with it those directly behind that have issued already. One that issues ahead of its
place frees no open descriptor before it (10_descriptors.md R250). -/
def Blk.pass (b : Blk) (i : Nat) (sched : Bool) : Blk :=
  if i = b.sched.next then
    let n := runEarly b.sched.early (i + 1) b.sched.early.length + 1
    let last := if sched then some b.tick.lcyc else b.sched.lastIssue
    { b with sched := { b.sched with
      next := i + n, queue := b.sched.queue.drop n, early := b.sched.early.filter (fun e => decide (i + n ≤ e.1)),
      lastIssue := match b.sched.early.find? (fun e => e.1 == i + n - 1) with | some e => some e.2 | none => last } }
  else { b with sched := { b.sched with early := (i, b.tick.lcyc) :: b.sched.early } }

/-- What a scheduled `TTAKE` that issues now hides from the accesses of its cycle too: the rows it clears (R73). -/
def Blk.maskSeen (b : Blk) (d : Desc) : Blk :=
  if d.opc = 0x22 && isScheduled d then { b with seen := b.seen.map (fun x =>
    if x.1 = d.slot then (x.1, { x.2 with rowValid := x.2.rowValid &&& (b.tile d.slot).rowValid }) else x) }
  else b

/-- The schedule thread issues and releases: while ticks run unheld, until `TEND` (R249), and not in Draining (15_states_power.md R352). -/
def Blk.issuing (b : Blk) : Bool := b.moving && !b.sched.ended && b.lc != .draining

/-- Issue or release descriptor `d`, while the schedule thread does so. A scheduled one whose hold condition still
stands is a late hold. `f` is given the descriptor's index. What it changes of a status word is seen from the next cycle on, but for a
release (R73, R82). -/
def issue (d : Desc) (f : Store → Blk → Nat → Blk) (st : Store) (b : Blk) : Blk :=
  if !b.issuing then b
  else
    let place := b.placeOf st d
    let idx := place.getD noIdx
    let lag := place.any (fun i => decide (b.sched.next + b.sched.queue.length ≤ i))
    let b1 := match place with | some i => b.pass i (isScheduled d) | none => b
    if isScheduled d && (lag || b1.missing st idx d) then (b1.lateHold st idx d).holdUpdate st
    else if d.opc = 0x02 then f st b1 idx
    else (b1.keepSeen (f st b1 idx)).maskSeen d

/-- Anise slots that a converting write uses (R229). -/
def Blk.usedScales (b : Blk) (d : Desc) : List Nat :=
  (checkWrites d).filterMap (fun s => let t := b.tile s
    if converts d.opc (shFmt t.shape) || (d.opc == 0x33 && decide (2 ≤ d.choices) && decide (shFmt t.shape ≤ 10)) then some t.scaleSlot
    else none)

/-- An operation record for a descriptor that issues now. -/
def Blk.newOp (b : Blk) (d : Desc) (idx : Nat) : Op :=
  let opn := isOpenDesc d
  let rs := b.readShape d.slot (d.opc == 0x21)
  let ws := (b.tile (if isLoop d.opc then d.dst else d.slot)).shape
  let src := if readsTile d.opc then rs else 0
  let total := match d.opc with
    | 0x22 => accessTotal d ws
    | 0x20 => accessTotal d rs
    | 0x21 => accessTotal d rs
    | 0x40 => accessTotal d rs
    | 0x41 => accessTotal d rs
    | 0x30 => d.nidx
    | _ => d.nrows
  let slot := if isLoop d.opc then d.dst else d.slot
  { id := b.opNo, d := d, idx := idx, opn := opn, tick := b.tick.tick, base := if idx = noIdx then b.tick.lcyc else d.slotCycle,
    total := total, dests := (checkWrites d).map (fun s => (s, (b.tile s).gen)), srcShape := src, dstShape := ws,
    srcGen := (b.tile d.slot).gen, scale := (b.tile slot).scaleSlot, scales := b.usedScales d,
    sigma := if converts d.opc (shFmt ws) then b.sigmaOf ws (b.tile slot).scaleSlot else 0,
    oldValid := (b.tile d.slot).rowValid, releasedAt := b.tick.wall + 1 }

/-- Count a use of an Anise slot that an active open operation holds (R229). -/
def Blk.noteShared (b : Blk) (d : Desc) : Blk :=
  let held := (b.ops.filter (fun o => o.opn && o.role == .main)).flatMap (fun o => o.scales)
  if (b.usedScales d).any (fun s => held.contains s) then b.count K.ANISE_SHARED else b

/-- A write operation issues to every slot it names (R71). -/
def Blk.writesIssue (b : Blk) (d : Desc) : Blk :=
  let mask := if tileCommit d.opc then rowMask d.start d.nrows else 0
  (checkWrites d).foldl (fun b s => b.writeIssues d.opc s mask (tileCommit d.opc)) b

/-- The merge unit's record of an SE-M operation at its release (R184, R194, R217). -/
def Blk.initSem (b : Blk) (o : Op) : Blk :=
  let d := o.d
  match b.sems.find? (fun m => m.op == o.id) with
  | none => b
  | some m =>
    if d.opc = 0x32 then
      b.setSem { m with rows := (List.range d.nrows).map (fun i =>
        { slot := d.slot, row := d.start + i, needsPre := d.opf && o.oldValid.getLsbD (d.start + i) }) }
    else if d.opc = 0x31 then
      b.setSem { m with claimed := (List.range (d.nexp * d.bktTiles)).flatMap (fun i =>
        ((List.range 64).filter (fun r => (b.tile (d.slot + i)).rowValid.getLsbD r)).map (fun r => (d.slot + i, r))) }
    else b.setSem { m with uses := (List.range d.dstTiles).map (fun i =>
        let t := b.tile (d.slot + i)
        (d.slot + i, b.sigmaOf t.shape t.scaleSlot, {}, false)) }

/-- A release finds its queue full (06_sumac.md R138). The unit names the operation's own port, also where it is the preload queue of a
`TMERGE` on `ACC_PORT` that is full (DESIGN CHOICE, log entry 89). -/
def Blk.queueFull (b : Blk) (d : Desc) : Blk :=
  (b.count K.OPEN_QUEUE_FULL).event 0x0403 1 (16 * d.port + d.req)

/-- Suppress a descriptor of the tick program. -/
def Blk.suppress (b : Blk) (idx : Nat) : Blk := { b with sched := { b.sched with suppressed := idx :: b.sched.suppressed } }

/-- The number of rows of an operation is zero: an empty operation (R84). -/
def emptyDesc (d : Desc) : Bool :=
  [0x10, 0x11, 0x20, 0x21, 0x22, 0x32, 0x40, 0x41, 0x50, 0x51].contains d.opc && d.nrows == 0

/-- A port operation that passes the queue and shape checks starts. -/
def Blk.startOp (b : Blk) (d : Desc) (idx : Nat) : Blk :=
  let o := b.newOp d idx
  let b1 := (b.noteShared d).writesIssue d
  let b2 := { b1 with ops := b1.ops ++ [o], opNo := b1.opNo + 1 }
  if !o.opn then b2
  else
    let b3 := b2.enqueue d.port d.req o.id
    if !([0x31, 0x32, 0x33].contains d.opc) then b3
    else
      let b4 := (Blk.initSem { b3 with sems := b3.sems ++ [{ op := o.id }] } o).activateSems
      if !(d.opc == 0x32 && d.opf) then b4
      else
        let pre : Op :=
          { o with id := b4.opNo, d := { d with port := d.accPort }, role := .preload, idx := o.id, dests := [],
                   total := ((List.range d.nrows).filter (fun i => o.oldValid.getLsbD (d.start + i))).length }
        if pre.total = 0 then b4
        else ({ b4 with ops := b4.ops ++ [pre], opNo := b4.opNo + 1 }).enqueue d.accPort d.req pre.id

/-- Issue or release of a port operation: empty operation, full queue, shape check, start. -/
def portOp (d : Desc) (_st : Store) (b : Blk) (idx : Nat) : Blk :=
  if emptyDesc d then b.count K.EMPTY_OPS
  else if isOpenDesc d && (decide (8 ≤ (b.requester d.port d.req).queue.length)
      || (d.opc == 0x32 && d.opf && decide (8 ≤ (b.requester d.accPort d.req).queue.length))) then (b.queueFull d).suppress idx
  else match b.shapeCheck d with
    | some (c, s, q) => ((b.shapeFault d.opc s (b.tile s).shape c q).suppress idx)
    | none => b.startOp d idx

/-- Every descriptor's issue ends with what follows any change. -/
def issued (d : Desc) (f : Store → Blk → Nat → Blk) (s : State) : State :=
  s.cyc (fun st b => (issue d f st b).serve st)

/-- `TFEED`. -/
def execTfeed (d : Desc) (s : State) : Host.Outcome State Fault Refusal := .next (issued { d with opc := 0x20 } (portOp { d with opc := 0x20 }) s)

/-- `TFEEDT`. -/
def execTfeedt (d : Desc) (s : State) : Host.Outcome State Fault Refusal := .next (issued { d with opc := 0x21 } (portOp { d with opc := 0x21 }) s)

/-- `TTAKE`. -/
def execTtake (d : Desc) (s : State) : Host.Outcome State Fault Refusal := .next (issued { d with opc := 0x22 } (portOp { d with opc := 0x22 }) s)

/-- `TROUTE`. -/
def execTroute (d : Desc) (s : State) : Host.Outcome State Fault Refusal := .next (issued { d with opc := 0x31 } (portOp { d with opc := 0x31 }) s)

/-- `TMERGE`. -/
def execTmerge (d : Desc) (s : State) : Host.Outcome State Fault Refusal := .next (issued { d with opc := 0x32 } (portOp { d with opc := 0x32 }) s)

/-- `TRETURN`. -/
def execTreturn (d : Desc) (s : State) : Host.Outcome State Fault Refusal := .next (issued { d with opc := 0x33 } (portOp { d with opc := 0x33 }) s)

/-- `TMOVE`. -/
def execTmove (d : Desc) (s : State) : Host.Outcome State Fault Refusal := .next (issued { d with opc := 0x40 } (portOp { d with opc := 0x40 }) s)

/-- `TCONV`. -/
def execTconv (d : Desc) (s : State) : Host.Outcome State Fault Refusal := .next (issued { d with opc := 0x41 } (portOp { d with opc := 0x41 }) s)

/-- `TSEND`. -/
def execTsend (d : Desc) (s : State) : Host.Outcome State Fault Refusal := .next (issued { d with opc := 0x50 } (portOp { d with opc := 0x50 }) s)

/-- `TRECV`. -/
def execTrecv (d : Desc) (s : State) : Host.Outcome State Fault Refusal := .next (issued { d with opc := 0x51 } (portOp { d with opc := 0x51 }) s)

/-- `TGATHER`: with no index it completes at once (R202). -/
def execTgather (d : Desc) (s : State) : Host.Outcome State Fault Refusal :=
  .next (issued { d with opc := 0x30 } (fun st b i => if d.nidx = 0 && (b.shapeCheck { d with opc := 0x30 }).isNone then b
    else portOp { d with opc := 0x30 } st b i) s)

/-- What a `TCFG` does to its slot. -/
def Blk.configureBy (b : Blk) (d : Desc) : Blk := b.configure 0x01 d.slot d.shape d.scaleSlot d.epoch d.opf

/-- The `TCFG` of a slot with a release scrub pending waits for its scrub under hold cause bit 0, and takes effect when the scrub is
done (R75, R82). -/
def doTcfg (d : Desc) (b : Blk) : Blk :=
  if (b.tile d.slot).scrubPend then { b with heldCfg := b.heldCfg ++ [d] } else b.configureBy d

/-- `TCFG` (R71). -/
def execTcfg (d : Desc) (s : State) : Host.Outcome State Fault Refusal :=
  .next (issued { d with opc := 0x01 } (fun _ b _ => doTcfg d b) s)

/-- `TREL` (R71, R75): a `TCFG` of the slot that still waits for its scrub is overtaken. -/
def execTrel (d : Desc) (s : State) : Host.Outcome State Fault Refusal :=
  .next (issued { d with opc := 0x02 } (fun _ b _ =>
    Blk.release { b with heldCfg := b.heldCfg.filter (fun c => c.slot != d.slot) } 0x02 d.slot) s)

/-- Raise the epoch of live slots (R71). -/
def Blk.cancelSlots (b : Blk) (base n : Nat) : Blk :=
  ((List.range n).foldl (fun b i => if (b.tile (base + i)).inUse then b.raiseEpoch (base + i)
    else { b with raised := (base + i) :: b.raised }) b).semSettle

/-- `TCANCEL`. -/
def execTcancel (d : Desc) (s : State) : Host.Outcome State Fault Refusal :=
  .next (issued { d with opc := 0x03 } (fun _ b _ => if d.nslots = 0 then b.count K.EMPTY_OPS else b.cancelSlots d.slot d.nslots) s)

/-- The units named by a `PWR`: ports, and groups as units from 8 on; in half mode bit h names half group Hh. -/
def Blk.pwrUnits (b : Blk) (pmask gmask : Nat) : List Nat :=
  (List.range 6).filter (fun p => bit pmask p)
  ++ (if b.half then ((List.range 4).filter (fun h => bit gmask h)).map (fun h => 8 + bits (b.reg K.HALF_GROUPS) (8 * h + 7) (8 * h))
      else ((List.range 8).filter (fun g => bit gmask g)).map (fun g => 8 + g))

/-- `PWR` (R248). -/
def execPwr (d : Desc) (s : State) : Host.Outcome State Fault Refusal :=
  .next (issued { d with opc := 0x70 } (fun _ b _ =>
    if d.pmask = 0 && d.gmask = 0 then b.count K.EMPTY_OPS
    else (b.pwrUnits d.pmask d.gmask).foldl (fun b u => b.setIdle u (d.pstate == 1) 1 5) b) s)

/-- `MARK` (R249). -/
def execMark (d : Desc) (s : State) : Host.Outcome State Fault Refusal :=
  .next (issued { d with opc := 0x71 } (fun _ b _ => b.traceRec 2 1 (leBytes 4 d.markId ++ leBytes 2 (b.reg K.PROG_NOW))) s)

/-- `TEND` (R249): the schedule thread issues and releases nothing until the next boundary. -/
def execTend (d : Desc) (s : State) : Host.Outcome State Fault Refusal :=
  .next (issued { d with opc := 0x7F } (fun _ b _ => { b with sched := { b.sched with ended := true } }) s)

/-- `ISSUE_QUEUE_FILL`: the schedule thread brings one more descriptor into its queue of 128 (R269). -/
def fillQueue (b : Blk) : Blk :=
  if b.sched.on && (b.lc == .armed || b.ticking) && decide (b.sched.queue.length < 128)
  then { b with sched := { b.sched with queue := b.sched.queue ++ [b.tick.wall] } } else b

/-- `ISSUE_QUEUE_FILL`. -/
def execIssueQueueFill (s : State) : Host.Outcome State Fault Refusal :=
  .next (s.cyc (fun st b => (fillQueue b).serve st))

end Sys2Proof.Machine
end

