-- ==== Sys2Proof/Machine/Rows.lean ====
section
/-! DEFINITION. Row transfers (07_rows_in_out.md): their release, the status beats of the load/store unit, resumption,
pre-emption and abandonment. -/

namespace Sys2Proof.Machine

/-- `TLD` (R152, R158). -/
def execTld (d : Desc) (s : State) : Host.Outcome State Fault Refusal := .next (issued { d with opc := 0x10 } (portOp { d with opc := 0x10 }) s)

/-- `TST` (R152, R166). -/
def execTst (d : Desc) (s : State) : Host.Outcome State Fault Refusal := .next (issued { d with opc := 0x11 } (portOp { d with opc := 0x11 }) s)

/-- `ROW_FAULT_LAST` of an event of a transfer (R171), and its trace record (16_faults.md R389). -/
def Blk.rowFaultLast (b : Blk) (o : Op) (tn k kind cause : Nat) : Blk :=
  b.setRec K.ROW_FAULT_LAST (leBytes 8 b.stamp.toNat ++ leBytes 2 tn ++ [BitVec.ofNat 8 k, BitVec.ofNat 8 kind,
    BitVec.ofNat 8 cause] ++ leBytes 2 o.d.slot ++ [BitVec.ofNat 8 o.d.opc])

def Blk.rowTrace (b : Blk) (o : Op) (tn k kind : Nat) : Blk :=
  b.traceRec 13 7 (leBytes 2 o.d.slot ++ leBytes 2 tn ++ [BitVec.ofNat 8 k, BitVec.ofNat 8 kind])

/-- A departure from the protocol on `LS-I` (R157): port 0xFF when no operation can be named. -/
def Blk.lsProto (b : Blk) (port : Nat) : Blk := b.beatFault K.EP_PROTO 8 port 8 0 none

/-- A status beat is taken (R155): one for no active transfer is ignored and counted. -/
def Blk.statusBeat (tn : Nat) (f : Blk → Op → Xfer → Blk) (b : Blk) : Blk :=
  if !b.moves || b.busLow 8 then b
  else match b.xfer? tn with
    | none => b.lsProto 0xFF
    | some x => match b.op? x.op with
      | none => b.lsProto 0xFF
      | some o => let x1 := { x with lastBeat := b.tick.wall }; f (b.setXfer x1) o x1

/-- The lowest row a status beat of a transfer may name (R157): also the next expected row when no beat names one. -/
def Xfer.lowRow (x : Xfer) (o : Op) : Nat := if x.store then x.stored.getD x.cfirst else o.nextRow

/-- The highest row a status beat may name: a load's next row; the row of a store that has not yet been sent on `LS-O`. -/
def Blk.highRow (b : Blk) (o : Op) (x : Xfer) : Nat :=
  if x.store then max x.cfirst (o.nextRow - (b.outs.filter (fun y => y.op == o.id && y.cmd.isNone)).length) else o.nextRow

/-- The row k of a status beat: an `SROW` outside the expected range counts a departure, and its nearest bound is used. -/
def Blk.pickRow (b : Blk) (o : Op) (x : Xfer) (row : Nat) : Blk × Nat :=
  if row < x.lowRow o then (b.lsProto o.d.port, x.lowRow o)
  else if b.highRow o x < row then (b.lsProto o.d.port, b.highRow o x)
  else (b, row)

/-- An operation whose transfer is over leaves its requester's queue; a load stays until its writes have landed. -/
def Blk.endXfer (b : Blk) (o : Op) (x : Xfer) (orphan : Bool) : Blk :=
  let gone : Xfer := { x with orphan := true, order := none, faulted := none, suspended := none }
  let xs := if orphan then b.xfers.map (fun y => if y.tn = x.tn then gone else y) else b.xfers.filter (fun y => y.tn != x.tn)
  let b1 := { b with xfers := xs }
  let b2 := b1.finishOp o
  if x.store || o.role = .image then b2
  else ({ b2 with ops := b2.ops ++ [{ (b.op? o.id).getD o with taken := true }] }).settleLoad o.id

/-- Abandonment at row `k` (R164). That of a transfer of the engine ends the save or restore (15_states_power.md R366, R367). -/
def Blk.abandon (b : Blk) (o : Op) (x : Xfer) (k cause : Nat) (orphan : Bool) : Blk :=
  let t := b.tile o.d.slot
  let b1 := if x.store || t.gen / 2 != o.genOf o.d.slot / 2 then b
    else { b with tiles := Tab.set (fun _ => ({} : Tile)) b.tiles o.d.slot { t with abandoned := true } }
  let b2 := (((b1.count K.LS_ABANDONED).rowFaultLast o x.tn k 0x11 cause).rowTrace o x.tn k 0x11).event 0x0501 1 o.d.slot
  let b3 := b2.endXfer o x orphan
  if o.role = .image then b3.srEnd 5 else b3

/-- A resumption at row `k` (R154, R161): it issues in the cycle after the beat that brings it (17_worked_tick.md R393). -/
def Blk.resume (b : Blk) (o : Op) (x : Xfer) (k retries : Nat) : Blk :=
  b.inNext (fun b =>
    let counted := (b.op? o.id).any (fun p => p.counted)
    let o1 : Op := { o with n := k - o.d.start, taken := false, counted := true }
    let x1 : Xfer :=
      { x with order := some b.nextOrder, cfirst := k, delivered := false, suspended := none, aborting := none, abortSent := false,
               faultK := none, retries := retries, lastBeat := b.tick.wall }
    let b1 := (((b.setOp o1).setXfer x1).count K.ROW_RESUMES).rowTrace o x.tn k 0
    let b2 := if x.store || counted then b1 else b1.keepSeen (b1.writeIssues o.d.opc o.d.slot 0 false)
    b2.pushCommand o.id x.tn (commandSb o x.store true x.tn k (b.cUnits o)))

/-- The configuration under which a transfer's tile may take a new `START_ROW`. -/
def Op.xferGen (o : Op) (x : Xfer) : Nat := if x.store then o.srcGen else o.genOf o.d.slot

/-- `ROW_FAULT` (R160, R167): the transfer is suspended at row k; while an abort is pending it is not, and k decides its outcome
(R169). In both cases it has ended for R71 (R158). -/
def rowFault (row cause : Nat) (b : Blk) (o : Op) (x : Xfer) : Blk :=
  if x.suspended.isSome then b.lsProto o.d.port
  else
    let (b0, k) := b.pickRow o x row
    let b1 := ((b0.count K.ROW_FAULTS).rowFaultLast o x.tn k 1 cause).rowTrace o x.tn k 1
    let b2 := b1.startRow o.d.slot (o.xferGen x) k
    let x1 : Xfer := { x with faulted := some k, order := none, slackHold := x.slackHold && x.faulted == some k }
    ((b2.setOp { o with n := k - o.d.start, taken := true }).setXfer
      (if x.aborting.isSome then { x1 with faultK := some k } else { x1 with suspended := some k })).settleLoad o.id

def execRowFault (tn row cause : Nat) (s : State) : Host.Outcome State Fault Refusal :=
  .next (s.cyc (fun st b => (b.statusBeat tn (rowFault row cause)).serve st))

/-- `FAULT_RESOLVED` (R161). -/
def execFaultResolved (tn _cause : Nat) (s : State) : Host.Outcome State Fault Refusal :=
  .next (s.cyc (fun st b => (b.statusBeat tn (fun b o x =>
    match x.suspended, x.aborting with
    | some k, none => b.resume o x k x.retries
    | _, _ => b.lsProto o.d.port)).serve st))

/-- `FAULT_TERMINAL` (R161, R164). -/
def execFaultTerminal (tn cause : Nat) (s : State) : Host.Outcome State Fault Refusal :=
  .next (s.cyc (fun st b => (b.statusBeat tn (fun b o x =>
    match x.suspended, x.aborting with
    | some k, none => b.abandon o x k cause false
    | _, _ => b.lsProto o.d.port)).serve st))

/-- `STORED_BELOW` (R157, R165, R166). -/
def storedBelow (row : Nat) (b : Blk) (o : Op) (x : Xfer) : Blk :=
  if !x.store then b.lsProto o.d.port
  else
    let x1 : Xfer := { x with stored := some (max (x.stored.getD 0) (min row o.rowEnd)),
                              faulted := if x.faulted.any (fun f => decide (f < row)) then none else x.faulted }
    if row = o.rowEnd then b.endXfer o x1 false else b.setXfer x1

def execStoredBelow (tn row : Nat) (s : State) : Host.Outcome State Fault Refusal :=
  .next (s.cyc (fun st b => (b.statusBeat tn (storedBelow row)).serve st))

/-- What follows a pre-emption that ends at row `k` (R163): triggers 0 timeout, 1 cancel, 2 save or restore, 3 access fault. A load that
resumes has ended for R71 before (R158). -/
def Blk.preempted (b : Blk) (o : Op) (x : Xfer) (k cause : Nat) (orphan : Bool) : Blk :=
  let b0 := b.startRow o.d.slot (o.xferGen x) k
  if x.aborting = some 1 then (b0.count K.LS_CANCELLED).endXfer o x orphan
  else
    let b1 := if x.store then b0 else (b0.setOp { o with n := k - o.d.start, taken := true }).settleLoad o.id
    if !orphan && decide (o.rowEnd ≤ k) then b1.endXfer o x false
    else if !orphan && x.aborting = some 0 && decide (x.retries < b.cfg K.LS_RETRIES) then b1.resume o x k (x.retries + 1)
    else b1.abandon o x k cause orphan

/-- `ABORT_ACKNOWLEDGED` (R163, R169): a late one, for a transfer that ended without it, has no effect. -/
def abortAcknowledged (row : Nat) (b : Blk) (o : Op) (x : Xfer) : Blk :=
  if x.aborting.isNone then b.lsProto o.d.port
  else match x.faultK with
    | some k => b.preempted o x k 0 false
    | none => let (b1, k) := b.pickRow o x row; b1.preempted o x k 0 false

def execAbortAcknowledged (tn row : Nat) (s : State) : Host.Outcome State Fault Refusal :=
  .next (s.cyc (fun st b =>
    if b.moves && b.xfers.any (fun x => x.tn == tn && x.orphan) then
      ({ b with xfers := b.xfers.filter (fun x => !(x.tn == tn && x.orphan)) }).serve st
    else (b.statusBeat tn (abortAcknowledged row)).serve st))

/-- `LS_ROW_TIMEOUT` of the current load or store (R163). -/
def lsRowTimeout (b : Blk) (x : Xfer) : Blk :=
  match b.op? x.op with
  | none => b
  | some o =>
    if x.suspended.isSome || x.aborting.isSome || !(b.currentXfer x.store).any (fun y => y.tn == x.tn) then b
    else (((b.count K.LS_TIMEOUTS).rowFaultLast o x.tn (x.lowRow o) 0x10 0)).abortXfer x.tn 0

def execLsRowTimeout (tn : Nat) (s : State) : Host.Outcome State Fault Refusal :=
  .next (s.cyc (fun st b => match b.xfer? tn with
    | some x => if b.moves then (lsRowTimeout b x).serve st else b
    | none => b))

/-- `ABORT_ACK_TIMEOUT` (R163). -/
def abortAckTimeout (b : Blk) (x : Xfer) : Blk :=
  match b.op? x.op, x.aborting with
  | some o, some _ =>
    let k := match x.faultK, x.suspended with
      | some k, _ => k
      | none, some k => k
      | none, none => x.lowRow o
    (b.event 0x0502 1 o.d.slot).preempted o x k 0 true
  | _, _ => b

def execAbortAckTimeout (tn : Nat) (s : State) : Host.Outcome State Fault Refusal :=
  .next (s.cyc (fun st b => match b.xfer? tn with
    | some x => if b.moves then (abortAckTimeout b x).serve st else b
    | none => b))

end Sys2Proof.Machine
end

