-- ==== Sys2Proof/Machine/Sumac.lean ====
section
/-! DEFINITION. Open-slot arbitration (06_sumac.md): candidates, rank, grants, aging, deadline misses and hogging; what each grant
does (05_ports.md R127 to R132; gather, 08_route_merge.md R172 to R176); delivery from the return buffers. -/

namespace Sys2Proof.Machine

/-! ### What the schedule owns in a cycle (R94, R115, R140) -/

/-- Shape of a slot for an operation in flight. -/
def Op.shapeOf (o : Op) (s : Nat) : Nat := if readsTile o.d.opc && s == o.d.slot then o.srcShape else o.dstShape

/-- Scheduled and replay accesses, of operations in flight and of descriptors still to issue in this tick. While the counter is frozen there
are none: an open write granted then is not tested against claims of the cycles after the resumption (DESIGN CHOICE, log entry 102). -/
def schedAccs (st : Store) (b : Blk) : List Acc :=
  if !b.moving then []
  else
    let p := b.reg K.PROG_NOW
    (b.ops.filter (fun o => !o.opn && o.role != .preload && o.tick == b.tick.tick)).flatMap (fun o =>
      accessesOf b o.shapeOf o.idx { o.d with slotCycle := o.base } 0)
    ++ (if b.sched.on then (st.program p).filter (fun x =>
      isScheduled x.2 && decide (b.sched.next ≤ x.1) && !b.sched.early.any (fun e => e.1 == x.1)) else []).flatMap
      (fun x => accessesOf b (loadShape st b p x.1) x.1 x.2 0)

/-- Claims are numbers: a bank group 0 to 7 (`Blk.claimOf`), quarter position `q` of a port, and from 64 on an endpoint's bus. -/
def posNo (port q : Nat) : Nat := 16 + 4 * port + q

/-- The bus of an endpoint: `SR` uses those of `LS-I` and `LS-O` (R120). -/
def busNo (endpt : Nat) (write : Bool) : Nat := if endpt = 12 then (if write then 72 else 73) else 64 + endpt

/-- The slot whose held scrub runs in this cycle: in held cycles for which no granted write has fixed a group (R95). -/
def Blk.heldScrub (b : Blk) : Option Nat :=
  if !b.ticking || !b.groupsActive || !b.tick.frozen || b.fixed.any (fun f => f.1 == b.tick.wall && decide (f.2 < 16)) then none
  else (b.heldCfg.head?).map (fun d => d.slot)

/-- Claims taken for the cycle `lat` cycles from now, by the scrub of a held `TCFG`, the schedule, and earlier grants (R94). A
scheduled read of a dead slot or of a pad row claims no group in its cycle (R91). An endpoint's bus belongs to the round of an access
whose beat comes when that of a transfer granted in the round would: at once for a write, six cycles later for a read (R117, R143). -/
def claimed (b : Blk) (as : List Acc) (lat : Nat) : List Nat :=
  let c := b.tick.lcyc + lat
  let live (r : Nat × Nat × Nat) : Bool := let x := b.rowRead r.1 r.2.1; x != .dead && x != .pad
  (if lat = 0 && b.heldScrub.isSome then List.range 8 else [])
  ++ (as.filter (fun a => a.bank == c)).flatMap (fun a => (a.rows.filter (fun r => a.write || lat != 0 || live r)).map (fun r => r.2.2))
  ++ (as.filter (fun a => decide (a.cyc ≤ c) && decide (c < a.cyc + a.span))).flatMap (fun a => a.qs.map (posNo a.port))
  ++ (as.filter (fun a => a.bus.any (fun x => x.2 == if a.write then c else c + 6))).map (fun a => match a.bus with
    | some x => busNo x.1 a.write | none => 64)
  ++ (b.fixed.filter (fun f => f.1 == b.tick.wall + lat)).map (fun f => f.2)

/-- Open quarter positions of a port in this cycle. -/
def openQuarters (b : Blk) (as : List Acc) (port : Nat) : List Nat :=
  let cs := claimed b as 0
  (List.range 4).filter (fun q => !cs.contains (posNo port q))

/-! ### Candidates (R141) -/

/-- A candidate and its one transfer. `pick`: for a gather 0 the index-row read, else the entry's sequence number + 1; for
an SE-M operation 0 the offered beat, else the row number + 1 of a root write. -/
structure Cand where
  id    : Nat
  op    : Nat := 0
  endpt : Nat := 13
  qs    : List Nat
  /-- what it claims besides: cycles from the grant, claim number -/
  claims : List (Nat × Nat) := []
  units : List Nat := []
  slot  : Nat := 0
  offer : Option Beat := none
  pick  : Nat := 0
  deriving DecidableEq, Repr

/-- Claims and power units of rows that are read from the banks. -/
def Blk.rowClaims (b : Blk) (rs : List (Nat × Nat)) : List (Nat × Nat) × List Nat :=
  let live := rs.filter (fun x => let r := b.rowRead x.1 x.2; r != .dead && r != .pad)
  (live.map (fun x => (0, b.claimOf x.1 x.2)), live.map (fun x => 8 + b.groupOf x.1 x.2))

/-- A claim of the candidate is taken. -/
def Cand.clashes (c : Cand) (b : Blk) (as : List Acc) : Bool := c.claims.any (fun x => (claimed b as x.1).contains x.2)

/-- A bank group of the candidate is taken (R141). -/
def Cand.groupBusy (c : Cand) (b : Blk) (as : List Acc) : Bool :=
  c.claims.any (fun x => decide (x.2 < 16) && (claimed b as x.1).contains x.2)

/-- The return buffer of a read-side endpoint has room (R127). -/
def Blk.room (b : Blk) (e : Nat) : Bool := decide ((b.outs.filter (fun x => x.opn && x.endpt == e)).length < 8)

/-- The beat offered on an endpoint bus since an earlier cycle. -/
def offerOn (offers : List Offer) (e : Nat) : Option Beat :=
  (offers.find? (fun x => x.endpt == e && x.early)).map (fun x => x.beat)

/-- A candidate that reads tile rows for an endpoint or the loop path. -/
def readCand (b : Blk) (o : Op) (id : Nat) : Option Cand :=
  let rows := if o.d.opc = 0x21 then
      let r0 := (quadOf o.d o.srcShape o.n).1
      [r0, r0 + 1, r0 + 2, r0 + 3] else [accessRow o.d o.srcShape o.n]
  let rs := rows.map (fun r => (o.d.slot, r))
  let (cl, us) := b.rowClaims rs
  let loop := isLoop o.d.opc
  let row := accessRow o.d o.srcShape o.n
  let dst := [o.d.wport, 8 + b.groupOf o.d.dst row]
  let wqs := if converts o.d.opc (shFmt o.dstShape) then
      loopQuarters o.srcShape o.dstShape o.d.qsplit (o.n % perRow o.srcShape o.d.qsplit)
    else if o.d.qsplit then (accessQuarters o.d o.srcShape o.n).filter (fun q => decide (q < shQuarters o.dstShape))
    else List.range (shQuarters o.dstShape)
  let store := o.d.opc = 0x11
  let cur := !store || (b.currentXfer true).any (fun x => x.op == o.id && x.delivered)
  if o.taken || rs.any (fun x => b.rowRead x.1 x.2 == .hold) || !cur then none
  else if loop then
    if !b.heldCfg.isEmpty || b.fenced o.d.wport then none
    else some { id := id, op := o.id, endpt := 14, qs := accessQuarters o.d o.srcShape o.n, slot := o.d.slot,
                claims := cl ++ (14, b.claimOf o.d.dst row) :: wqs.map (fun q => (5, posNo o.d.wport q)),
                units := [o.d.port] ++ us ++ dst }
  else if !b.room o.d.endpt || b.epOut o.d.endpt then none
  else some { id := id, op := o.id, endpt := o.d.endpt, qs := if o.d.opc = 0x21 then [0, 1, 2, 3] else accessQuarters o.d o.srcShape o.n,
              claims := (0, busNo o.d.endpt false) :: cl, slot := o.d.slot, units := [o.d.port] ++ us }

/-- A candidate that takes a beat of `VU-Z`, `LS-I` or `LK-I` (R128, R156; 10_descriptors.md R247). -/
def writeCand (b : Blk) (o : Op) (id : Nat) (offers : List Offer) : Option Cand :=
  let row := accessRow o.d o.dstShape o.n
  match offerOn offers o.d.endpt with
  | none => none
  | some bt =>
    let mine := match o.d.opc with
      | 0x10 => bt.qen != 0 && (b.currentXfer false).any (fun x => x.op == o.id)
      | 0x51 => (byteAt bt.sb 96).toNat == o.d.chan && (byteAt bt.sb 97).toNat == row
          && b.ops.all (fun p => p.d.opc != 0x51 || p.d.chan != o.d.chan || decide (o.id ≤ p.id))
      | _ => true
    if o.taken || !mine || b.epOut o.d.endpt || !b.heldCfg.isEmpty then none
    else some { id := id, op := o.id, endpt := o.d.endpt, qs := accessQuarters o.d o.dstShape o.n,
                claims := [(9, b.claimOf o.d.slot row), (0, busNo o.d.endpt true)],
                units := [o.d.port, 8 + b.groupOf o.d.slot row], slot := o.d.slot, offer := some bt }

/-- Ready root writes of an SE-M operation. -/
def SemOp.readyRows (m : SemOp) (wall : Nat) : List MRow := m.rows.filter (fun r => r.ready.any (fun t => decide (t ≤ wall)))

/-- The root write of a ready row, by which SE-M's bus is not used (08_route_merge.md R180). -/
def rootCand (b : Blk) (o : Op) (r : MRow) : Cand :=
  { id := o.d.req, op := o.id, endpt := 15, qs := List.range (shQuarters (b.tile r.slot).shape), claims := [(9, b.claimOf r.slot r.row)],
    units := [5], slot := r.slot, pick := o.rowNo r + 1 }

/-- The take of an offered SE-M data beat; what it puts into the write path claims its group for c+14 (R180). None: the beat is
refused. -/
def semOffer (b : Blk) (o : Op) (m : SemOp) (bt : Beat) : Option Cand :=
  let slot := o.semSlot bt
  let shape := if o.d.opc = 0x32 then o.dstShape else (b.tile slot).shape
  (semTake b o m bt {}).map (fun b1 =>
    { id := o.d.req, op := o.id, endpt := 4, qs := List.range (shQuarters shape), units := [5], slot := slot, offer := some bt,
      claims := (0, busNo 4 true) :: (b1.writes.drop b.writes.length).map (fun w => (14, b.claimOf w.slot w.row)) })

/-- A candidate of an SE-M operation: a ready root write before a new beat (08_route_merge.md R180). -/
def semCand (b : Blk) (o : Op) (offers : List Offer) : Option Cand :=
  match b.sems.find? (fun m => m.op == o.id) with
  | none => none
  | some m =>
    if !b.semOpen o m then none
    else match m.readyRows b.tick.wall with
      | r :: _ => some (rootCand b o r)
      | [] => match offerOn offers 4 with
        | some bt =>
          if [1, 3, 5].contains (byteAt bt.sb 96).toNat && (b.semTarget bt).any (fun x => x.1.id == o.id) then semOffer b o m bt
          else none
        | none => none

/-- An SE-M data beat offered since an earlier cycle that the merge unit refuses, in a round or not (R187). -/
def semRefuse (b : Blk) (offers : List Offer) : Blk :=
  if !b.ticking || b.busLow 4 || b.fenced 5 then b
  else match offerOn offers 4 with
    | some bt => match b.semTarget bt with
      | some (o, m) => if [1, 3, 5].contains (byteAt bt.sb 96).toNat && (semTake b o m bt {}).isNone then b.refuse o else b
      | none => b
    | none => b

/-- The next preload row of a `TMERGE` (R184). -/
def Blk.preloadRow (b : Blk) (o : Op) : Option (Op × SemOp × MRow) :=
  match b.op? o.idx, b.sems.find? (fun m => m.op == o.idx) with
  | some p, some m => (m.rows.find? (fun r => r.needsPre && r.preload.isNone && !r.done)).map (fun r => (p, m, r))
  | _, _ => none

def preloadCand (b : Blk) (o : Op) (id : Nat) : Option Cand :=
  match b.preloadRow o with
  | none => none
  | some (_, _, r) =>
    if 1024 ≤ b.bufUsed then none
    else some { id := id, op := o.id, endpt := 15, qs := List.range (shQuarters o.dstShape), claims := [(0, b.claimOf r.slot r.row)],
                units := [o.d.port, 8 + b.groupOf r.slot r.row], slot := r.slot }

/-- The engine's candidate in a save: the next valid row of its context (15_states_power.md R366, step 3). -/
def saveCand (b : Blk) (o : Op) (id : Nat) : Option Cand :=
  match b.sr.todo with
  | (s, row) :: _ =>
    if b.sr.phase = 2 && b.sr.op = some o.id && b.rowRead s row != .hold then
      some { id := id, op := o.id, endpt := 12, qs := List.range (shQuarters (b.tile s).shape),
             claims := [(0, busNo 12 false), (0, b.claimOf s row)], units := [o.d.port, 8 + b.groupOf s row], slot := s }
    else none
  | [] => none

/-- The engine's candidate in a restore: the next row whose record is in, or else the take of a beat of the image, which needs no quarter
position of the port (05_ports.md R120; 15_states_power.md R367, step 4; log entry 25). -/
def restoreCand (b : Blk) (o : Op) (id : Nat) (offers : List Offer) : Option Cand :=
  let beat : Option Cand := match offerOn offers 8, b.currentXfer false with
    | some bt, some x =>
      if bt.qen != 0 && !b.epOut 8 && (b.op? x.op).any (fun p => p.role == .image) then
        some { id := id, op := o.id, endpt := 8, qs := [], claims := [(0, busNo 8 true)], units := [o.d.port], offer := some bt }
      else none
    | _, _ => none
  if b.sr.phase ≠ 2 || b.sr.op ≠ some o.id || !b.heldCfg.isEmpty then none
  else match b.sr.hand with
    | some x => match x.rows, b.nextRecord x with
      | row :: _, some _ =>
        some { id := id, op := o.id, endpt := 12, qs := List.range (shQuarters (fieldAt x.head 4 4)), claims := [(9, b.claimOf x.slot row)],
               units := [o.d.port, 8 + b.groupOf x.slot row], slot := x.slot }
      | _, _ => beat
    | none => beat

/-! ### The gather queue (R172 to R176) -/

/-- An index value names no live source row (R173): the live-row count is that of the cycle before (03_tile_registers.md R72). -/
def Blk.indexFault (b : Blk) (d : Desc) (i : Nat) : Bool :=
  let t := b.seenTile (d.srcBase + i / 64)
  decide (d.srcTiles ≤ i / 64) || !t.inUse || decide (t.live ≤ i % 64)

/-- The oldest released `TGATHER` has the queue (R174). -/
def Blk.gatherOwner (b : Blk) (o : Op) : Bool := b.ops.all (fun p => p.d.opc != 0x30 || decide (o.id ≤ p.id))

/-- From staging, one index enters a free entry, and is checked (R203). -/
def Blk.gatherIntake (b : Blk) (d : Desc) : Blk :=
  match b.gStaged with
  | (k, i) :: rest =>
    if b.gather.length < 32 then { b with gather := b.gather ++ [{ seq := k, idx := i, fault := b.indexFault d i }], gStaged := rest } else b
  | [] => b

/-- An entry is delivered as an index fault: found so at its intake, or its slot is dead now (R173). -/
def Blk.entryFault (b : Blk) (d : Desc) (e : GEntry) : Bool := e.fault || !(b.seenTile (d.srcBase + e.idx / 64)).inUse

/-- Row of the index tile with index `k` of the operation, and the element in that row. -/
def Op.indexRow (o : Op) (k : Nat) : Nat × Nat :=
  let per := max 1 (shRB o.srcShape / 2)
  ((o.d.ifirst + k) / per, (o.d.ifirst + k) % per)

/-- The gather's one transfer (R175). -/
def gatherCand (b : Blk) (as : List Acc) (o : Op) (id : Nat) : Option Cand :=
  if !b.gatherOwner o || b.epOut 3 then none
  else
    let (row, _) := o.indexRow b.gNext
    let more := b.gStaged.isEmpty && decide (b.gNext < o.total) && b.rowRead o.d.slot row != .hold
    let (cl, us) := b.rowClaims [(o.d.slot, row)]
    let index : Cand := { id := id, op := o.id, endpt := 15, qs := List.range (shQuarters o.srcShape), claims := cl, slot := o.d.slot,
                          units := o.d.port :: us }
    let busy := claimed b as 0
    let ok (e : GEntry) : Bool := e.beat.isNone && !e.sent && (b.entryFault o.d e
      || (let s := o.d.srcBase + e.idx / 64
          let r := e.idx % 64
          b.rowRead s r != .hold && !busy.contains (b.claimOf s r)))
    if more && decide (b.gather.length ≤ 16) then some index
    else match if b.room 3 then b.gather.find? ok else none with
      | some e =>
        if b.entryFault o.d e then some { id := id, op := o.id, endpt := 3, qs := [0], claims := [(0, busNo 3 false)],
                                          units := [o.d.port], pick := e.seq + 1, slot := o.d.slot }
        else
          let s := o.d.srcBase + e.idx / 64
          let r := e.idx % 64
          some { id := id, op := o.id, endpt := 3, qs := List.range (shQuarters (b.seenTile s).shape),
                 claims := [(0, busNo 3 false), (0, b.claimOf s r)], units := [o.d.port, 8 + b.groupOf s r], pick := e.seq + 1, slot := s }
      | none => if more then some index else none

/-- The candidate of requester `id` of a port. -/
def candOf (b : Blk) (as : List Acc) (port id : Nat) (offers : List Offer) : Option Cand :=
  let r := b.requester port id
  if r.cut then none
  else if id = 15 then
    if b.svNextPort = some port then
      match b.svNow with
      | some w => match w.jobs with
        | j :: _ =>
          if w.writing && b.ticking && !b.heldCfg.isEmpty then none
          else some { id := 15, qs := [j.2.2], slot := j.1,
                      claims := (b.rowClaims [(j.1, j.2.1)]).1.map (fun x => (if w.writing then 9 else 0, x.2)) }
        | [] => none
      | none => none
    else none
  else match r.queue.head?.bind b.op? with
    | none => none
    | some o =>
      if !b.ticking && (b.lc == .safe || o.role != .save) || decide (b.tick.wall < o.releasedAt) then none
      else if o.role = .preload then preloadCand b o id
      else if o.d.opc = 0x60 then saveCand b o id
      else if o.d.opc = 0x61 then restoreCand b o id offers
      else if o.d.opc = 0x30 then gatherCand b as o id
      else if [0x31, 0x32, 0x33].contains o.d.opc then semCand b o offers
      else if readsTile o.d.opc then readCand b o id
      else if [0x10, 0x22, 0x51].contains o.d.opc then writeCand b o id offers
      else none

/-! ### Rank (R142) -/

/-- The value of a `REQ_BIAS` entry that is in force (R146). -/
def Blk.biasInForce (b : Blk) (k : Nat) : Int := toSigned 32 (b.rw k)

/-- Biased deadline of a requester. -/
def Blk.biased (b : Blk) (port id : Nat) : Nat :=
  let base : Nat := match (b.requester port id).queue.head?.bind b.op? with
    | some o => if 14 ≤ id then openCycle else o.d.deadline
    | none => openCycle
  (clampInt ((base : Int) + b.biasInForce (K.REQ_BIAS + 16 * port + id)) 0 openCycle).toNat

/-- The head ranks as overdue. -/
def Blk.overdue (b : Blk) (port id : Nat) : Bool :=
  let d := b.biased port id
  let earlier := if id = 15 then b.svNow.any (fun w => b.ticking && w.tick != b.tick.tick)
    else ((b.requester port id).queue.head?.bind b.op?).any (fun o => o.tick != b.tick.tick)
  d != openCycle && (decide (d < b.tick.lcyc) || earlier)

/-- The rank key, as one number: the class, then the effective deadline, then the id. -/
def Blk.rankKey (b : Blk) (port id : Nat) : Nat :=
  let eff := b.biased port id - (b.requester port id).aging * b.cfg K.AGE_STEP
  ((if b.overdue port id then 0 else 2 ^ 21) + eff) * 16 + id

/-! ### What a grant does -/

/-- An open write takes its beat (R128, R132): one with a bad stamp is discarded and the progress advances past it. Parity of the data and
the sideband is checked on a beat that is kept only (DESIGN CHOICE, log entry 90). -/
def openTake (b : Blk) (o : Op) (bt : Beat) (err : PathErr) : Blk :=
  let b0 := { b with xfers := b.xfers.map (fun x : Xfer => if x.op = o.id then
    { x with lastBeat := b.tick.wall, order := if o.total ≤ o.n + 1 then none else x.order } else x) }
  let (b1, bad) := checkStamp b0 true o.d.endpt o.d.port none bt
  let b2 := if err.write then b1.portError o.d.port else b1
  if bad then
    let o1 : Op := { o with skipped := accessRow o.d o.dstShape o.n :: o.skipped }
    (((b2.setOp o1).advanceOp o.id).settle o.id).settleLoad o.id
  else
    let rowQ (k : Nat) := if converts o.d.opc (shFmt o.dstShape) then convRowQ o.d o.dstShape o.n k else [k]
    let (b3, k) := checkBeat b2 true o.d.endpt o.d.port (takeQuarters o) rowQ bt
    takeRow b3 o k bt.sb err.write (b.stamp ||| BitVec.ofNat 64 (2 * accessQtr o.d o.dstShape o.n))

/-- The next access of an open read. -/
def openRead (st : Store) (b : Blk) (o : Op) (err : PathErr) : Blk :=
  let b1 := readAccess st b o true err
  { b1 with xfers := b1.xfers.map (fun x : Xfer => if x.op = o.id then { x with lastBeat := b.tick.wall } else x) }

/-- A preload transfer (R184, R213). -/
def preloadRead (st : Store) (b : Blk) (o : Op) (err : PathErr) : Blk :=
  match b.preloadRow o with
  | none => b
  | some (p, m, r) =>
    let d := deliver st b r.slot r.row (List.range (shQuarters o.dstShape)) .stored
    let b1 := b.eccAccount false b.stamp d.errs
    let b2 := (if err.read then b1.portError o.d.port else b1).semErrors { buf := err.buf }
    let codes := (decodeRow o.dstShape d.pay d.sb).map toFp32
    let r1 := { r with preload := some codes, poison := r.poison || sbPoison d.sb || err.read || err.buf.isSome }
    let b3 := ((b2.setSem (m.setRow r1)).evalMerge p r.slot r.row m.closed r1 false).notePeak
    let b4 := b3.advanceOp o.id
    match b4.op? o.id with
    | some o1 => if o1.taken then b4.finishOp o1 else b4
    | none => b4

/-- Rows read go to the `SE-G` return buffer: at once, or in ascending sequence number (R176). -/
def Blk.gatherFlush : Nat → Blk → Op → Blk
  | 0, b, _ => b
  | n + 1, b, o =>
    let next := if o.d.opf then (b.gather.find? (fun e => !e.sent)).filter (fun e => e.beat.isSome)
      else b.gather.find? (fun e => !e.sent && e.beat.isSome)
    match next with
    | none => b
    | some e =>
      if !b.room 3 then b
      else
        let out : OutBeat := { endpt := 3, port := o.d.port, op := o.id, beat := e.beat.getD {}, due := b.tick.wall + 6, seq := some e.seq,
                               slot := o.d.slot, opn := true }
        gatherFlush n { b with outs := b.outs ++ [out], gather := b.gather.map (fun x : GEntry => if x.seq = e.seq then { x with sent := true } else x) } o

/-- A gather transfer: the index row, or one entry (R173, R174, R176). -/
def gatherRead (st : Store) (b : Blk) (o : Op) (pick : Nat) (err : PathErr) : Blk :=
  if pick = 0 then
    let (row, e0) := o.indexRow b.gNext
    let (d, b1) := accessRead st b o o.d.port 15 o.d.slot row (List.range (shQuarters o.srcShape)) err.read
    let n := min (max 1 (shRB o.srcShape / 2) - e0) (o.total - b.gNext)
    { b1 with gStaged := (List.range n).map (fun i => (b.gNext + i, fieldAt d.pay (2 * (e0 + i)) 2)), gNext := b.gNext + n }
  else match b.gather.find? (fun e => e.seq + 1 == pick) with
    | none => b
    | some e =>
      let fault := b.entryFault o.d e
      let s := o.d.srcBase + e.idx / 64
      let qs := List.range (shQuarters (b.seenTile s).shape)
      let (pay, sb0, b1) := if fault then
          (List.replicate 1024 0, flagSb (rflags false false true false false false true), b.count K.GATHER_INDEX_FAULTS)
        else
          let (d, b') := accessRead st b o o.d.port 3 s (e.idx % 64) qs err.read
          (d.pay, d.sb, b')
      let fl := (if e.seq + 1 = o.d.nidx then 1 else 0) + if fault then 2 else 0
      let sb := putBytes sb0 96 (leBytes 2 o.d.opid ++ leBytes 2 e.seq ++ [BitVec.ofNat 8 fl, 0, 0, 0])
      let bt := mkBeat pay sb b.stamp (qenOf (if fault then [0] else qs))
      let b2 := { b1 with gather := b1.gather.map (fun x : GEntry => if x.seq = e.seq then { x with beat := some bt } else x) }
      (b2.advanceOp o.id).gatherFlush 32 o

/-- A row of a save is read (15_states_power.md R366). -/
def saveRead (st : Store) (b : Blk) (o : Op) (err : PathErr) : Blk :=
  match b.sr.todo with
  | (s, r) :: rest =>
    let (d, b1) := accessRead st b o o.d.port 12 s r (List.range (shQuarters (b.tile s).shape)) err.read
    { b1 with sr := { b1.sr with todo := rest, rows := b1.sr.rows ++ [(s, r, d.pay ++ d.sb)] } }
  | [] => b

/-- A row of a restore is written, under the stamp of its grant (R367, step 4). -/
def restoreWrite (b : Blk) (o : Op) (x : SrTile) (err : PathErr) : Blk :=
  match x.rows, b.nextRecord x with
  | row :: _, some p =>
    let b1 := if err.write then b.portError o.d.port else b
    if (b.tile x.slot).state = .damaged then b1.restoreDamaged x
    else
      (b1.putWrite
        { wid := 0, kind := .row, op := o.id, slot := x.slot, row := row, gen := x.gen, quarters := [0, 1, 2, 3], payload := p.1,
          sb := if err.write then poisonSb p.2 else p.2, due := b.tick.wall + 9, wallDue := true, last := x.rows.tail.isEmpty,
          stamp := b.stamp }).tookRecord x
  | _, _ => b

/-- A transfer of a restore: a beat of its image, or a row. A port internal error on a beat of the image finds no row to poison (log entry
50). -/
def restoreGrant (b : Blk) (o : Op) (beat : Option Beat) (err : PathErr) : Blk :=
  match beat with
  | some bt =>
    match (b.currentXfer false).bind (fun x => b.op? x.op) with
    | some p =>
      let (b1, bad) := checkStamp (if err.write then b.portError o.d.port else b) true 8 o.d.port none bt
      if bad then b1.srTake p []
      else let (b2, k) := checkBeat b1 true 8 o.d.port [0, 1, 2, 3] (fun q => [q]) bt; b2.srTake p k.data
    | none => b
  | none => match b.sr.hand with
    | some x => restoreWrite b o x err
    | none => b

/-- Sumac counts a grant of a candidate's quarter positions; they and its claims are taken from every other candidate of the cycle (R124,
R143). -/
def Blk.granted (b : Blk) (port : Nat) (c : Cand) : Blk :=
  let b1 := b.noteGrant port c.id c.qs.length
  { b1 with fixed := b.fixed ++ c.claims.map (fun x => (b.tick.wall + x.1, x.2)) ++ c.qs.map (fun q => (b.tick.wall, posNo port q)) }

/-- A granted transfer of an SE-M operation: a root write, or the take of a beat. -/
def semGrant (b : Blk) (o : Op) (c : Cand) (err : PathErr) : Blk :=
  match b.sems.find? (fun m => m.op == o.id) with
  | none => b
  | some m => match c.offer with
    | some bt => match semTake (b.granted 5 c) o m bt err with
      | some b1 => b.powered o b1
      | none => b
    | none => match m.rows.find? (fun r => o.rowNo r + 1 == c.pick) with
      | some r => b.powered o (rootWrite (b.granted 5 c) o m r err)
      | none => b

/-- A granted transfer, and the errors it meets. -/
def grant (st : Store) (port : Nat) (err : PathErr) (b : Blk) (c : Cand) : Blk :=
  if c.id = 15 then svGrant st (b.granted port c) port err
  else match b.op? c.op with
    | none => b
    | some o =>
      if [0x31, 0x32, 0x33].contains o.d.opc && o.role != .preload then semGrant b o c err
      else
        let b1 := b.granted port c
        if o.role = .preload then preloadRead st b1 o err
        else if o.d.opc = 0x30 then gatherRead st b1 o c.pick err
        else if o.d.opc = 0x60 then saveRead st b1 o err
        else if o.d.opc = 0x61 then restoreGrant b1 o c.offer err
        else match c.offer with
          | some bt => openTake b1 o bt err
          | none => openRead st b1 o err

/-! ### Operations that fail (R148, R361) -/

/-- A gather ends: its entries and its staging are discarded (R176). -/
def Blk.endGather (b : Blk) (o : Op) : Blk :=
  let b1 := { b with outs := b.outs.filter (fun x => x.op != o.id) }
  (if b.gatherOwner o then { b1 with gather := [], gStaged := [], gNext := 0 } else b1).finishOp o

/-- An open operation fails. A row transfer is abandoned, unacknowledged where `orphan` says so. -/
def Blk.failOpen (b : Blk) (o : Op) (orphan : Bool) : Blk :=
  if o.role = .preload then
    match b.op? o.idx with | some p => b.failSem p | none => b.finishOp o
  else if o.d.opc = 0x30 then b.endGather o
  else match (if o.d.opc = 0x10 || o.d.opc = 0x11 then b.xfers.find? (fun x => x.op == o.id && !x.orphan) else none) with
    | some x => b.abandon o x (x.faultK.getD (x.lowRow o)) 0 orphan
    | none => b.failOther o

/-- A candidate meets a unit that is not Active (R361): a row transfer is pre-empted, every other operation fails. -/
def Blk.candFault (port : Nat) (b : Blk) (c : Cand) : Blk :=
  match b.op? c.op with
  | none => b
  | some o =>
    let g := match c.units.find? (fun u => decide (8 ≤ u) && !b.active u) with | some u => u - 8 | none => match c.units.find? (fun u => decide (8 ≤ u)) with
      | some u => u - 8 | none => 0xFF
    match b.xfers.find? (fun x => x.op == o.id && !x.orphan) with
    | some x => if x.aborting.isSome then b else (b.openAccessFault o port g c.slot).abortXfer x.tn 3
    | none => (b.openAccessFault o port g c.slot).failOpen o false

/-! ### The round (R140 to R145) -/

/-- A deadline miss (R144). -/
def Blk.noteMiss (port : Nat) (b : Blk) (c : Cand) : Blk :=
  let r := b.requester port c.id
  if !b.overdue port c.id || r.missed then b
  else
    let d := leBytes 3 (b.biased port c.id)
    let rec' := leBytes 8 b.stamp.toNat ++ [BitVec.ofNat 8 port, BitVec.ofNat 8 c.id] ++ d ++ [0, 0, 0]
    let b1 := ((b.setRequester port c.id { r with missed := true }).countIn K.DEADLINE_MISSES 24 (4 * port)).setRec K.SUMAC_MISS_LAST rec'
    (b1.traceRec 7 4 ([BitVec.ofNat 8 port, BitVec.ofNat 8 c.id, 0, 0] ++ d)).firstEvent port 0x0401 0 port

/-- A hog cut-off (R145). -/
def Blk.cutOff (port : Nat) (b : Blk) (id : Nat) : Blk :=
  let p := b.cfg K.HOG_PENALTY
  let fl := b.record K.HOG_FLAGS 12
  let b1 := b.setRequester port id { b.requester port id with hog := 0, cut := decide (0 < p), penaltyEnd := b.tick.wall + 1 + p }
  let b2 := (b1.countIn K.HOG_CUTOFFS 24 (4 * port)).setRec K.HOG_FLAGS
    (putBytes fl (2 * port) (leBytes 2 (setBit (fieldAt fl (2 * port) 2) id true)))
  ((b2.noteSet (256 + 16 * port + id)).traceRec 8 4 [BitVec.ofNat 8 port, BitVec.ofNat 8 id]).firstEvent (16 + 16 * port + id) 0x0402 0 (16 * port + id)

/-- Hog counts after a contended round. -/
def Blk.hogs (port : Nat) (granted : List Nat) (b : Blk) : Blk :=
  let b1 := (List.range 16).foldl (fun b i =>
    let r := b.requester port i
    b.setRequester port i { r with hog := if granted.contains i then r.hog + 1 else 0 }) b
  granted.foldl (fun b i =>
    if 0 < b.cfg K.HOG_LIMIT && decide (b.cfg K.HOG_LIMIT < (b.requester port i).hog) then b.cutOff port i else b) b1

/-- The errors that the transfer of requester `id` meets. -/
def errsOf (errs : List (Nat × PathErr)) (id : Nat) : PathErr := ((errs.find? (fun e => e.1 == id)).map (fun e => e.2)).getD {}

/-- Walk the candidates in key order (R143): open positions, ids granted. A gather's transfer, and a preload's buffer row, are looked up
again behind the grants before it. -/
def walk (st : Store) (port : Nat) (errs : List (Nat × PathErr)) (as : List Acc) (offers : List Offer) :
    List Cand → List Nat → List Nat → Blk → Blk × List Nat
  | [], _, done, b => (b, done)
  | c0 :: cs, qs, done, b =>
    match if c0.endpt = 3 || c0.endpt = 15 then candOf b as port c0.id offers else some c0 with
    | none => walk st port errs as offers cs qs done b
    | some c =>
      if c.clashes b as || c.qs.any (fun q => !qs.contains q) then walk st port errs as offers cs qs done b
      else walk st port errs as offers cs (qs.filter (fun q => !c.qs.contains q)) (c.id :: done) (grant st port (errsOf errs c.id) b c)

/-- Sumac may grant on a port: while ticks run as R140 gives; while none runs in every cycle (12_service_matrix.md R300). -/
def Blk.roundOpen (b : Blk) (port : Nat) : Bool :=
  if b.ticking then b.roundNow port else b.lc != .off && !b.fenced port

/-- A round begins: the gather queue takes an index in, and the claims of past cycles are forgotten. -/
def Blk.openRound (b : Blk) (port : Nat) (offers : List Offer) : Blk :=
  let b0 := match b.ops.find? (fun o => o.d.opc == 0x30 && o.d.port == port && b.gatherOwner o) with
    | some o => b.gatherIntake o.d
    | none => b
  { b0 with
    roundAt := Tab.set (fun _ => 0) b0.roundAt port (b0.tick.wall + 1), fixed := b0.fixed.filter (fun f => decide (b0.tick.wall ≤ f.1)),
    withdrawn := b0.withdrawn.filter (fun e => !offers.any (fun x => x.endpt == e)) }

/-- One round of a port. A second command for the same port and cycle finds only the positions and buses that the first has left (log
entry 94). -/
def sumacRound (st : Store) (port : Nat) (offers : List Offer) (errs : List (Nat × PathErr)) (b : Blk) : Blk :=
  let b := if port = 5 then semRefuse b offers else b
  if !b.roundOpen port || 6 ≤ port then b
  else
    let as := schedAccs st b
    let qs := openQuarters b as port
    if qs.isEmpty then b
    else
      let b0 := b.openRound port offers
      let all := (List.range 16).filterMap (fun i => candOf b0 as port i offers)
      let (bad, cs) := all.partition (fun c => c.units.any (fun u => !b0.active u))
      let b1 := bad.foldl (Blk.candFault port) b0
      let busy := cs.filter (fun c => c.groupBusy b1 as)
      let b2 := cs.foldl (Blk.noteMiss port) (if busy.isEmpty then b1 else b1.count K.OPEN_GROUP_BUSY busy.length)
      let sorted := sortBy (fun x => b2.rankKey port x.id) cs
      let (b3, granted) := walk st port errs as offers sorted qs [] b2
      let b4 := (cs.filter (fun c => !granted.contains c.id)).foldl (fun b c =>
        let r := b.requester port c.id
        b.setRequester port c.id { r with aging := min (r.aging + 1) (b.cfg K.AGE_MAX) }) b3
      if 2 ≤ cs.length then b4.hogs port granted else b4

/-- A round, and what follows it. -/
def State.round (s : State) (port : Nat) (offers : List Offer) (errs : List (Nat × PathErr)) : State :=
  s.ordered (s.upd (fun st b => (sumacRound st port offers errs b).serve st)).mxServe

/-- `SUMAC_ROUND`. -/
def execSumacRound (port : Nat) (offers : List Offer) (portErr : List (Nat × PathErr)) (upsets : List Upset) (s : State) :
    Host.Outcome State Fault Refusal :=
  .next (({ s with mem := s.mem.upset upsets } : State).round port offers portErr)

/-! ### SE-M beats one by one (08_route_merge.md R178, R180) -/

/-- An `SE-M` data beat of kind `kind` (R178): one that names no active operation is discarded; any other is offered in a round of `WRB`,
beside whatever else is pending on that port. -/
def takeSem (kind : Nat) (bt : Beat) (s : State) : State :=
  if !s.blk.ticking || s.blk.epOut 4 || s.blk.fenced 5 then s
  else match s.blk.semTarget bt with
    | none => s.upd (fun _ b => b.noTarget 4 bt.qen.toNat)
    | some _ =>
      if (byteAt bt.sb 96).toNat ≠ kind then s.upd (fun _ b => b.noTarget 4 bt.qen.toNat)
      else s.round 5 [{ endpt := 4, beat := bt }] []

/-- `MERGE_CONTRIBUTION`. -/
def execMergeContribution (bt : Beat) (s : State) : Host.Outcome State Fault Refusal := .next (takeSem 1 bt s)

/-- `ROUTE_ROW`. -/
def execRouteRow (bt : Beat) (s : State) : Host.Outcome State Fault Refusal := .next (takeSem 3 bt s)

/-- `RETURN_ROW`. -/
def execReturnRow (bt : Beat) (s : State) : Host.Outcome State Fault Refusal := .next (takeSem 5 bt s)

/-- `MERGE_ROOT_READY`: a round of `WRB` in which the operation offers the root write of this ready row before that of any other. -/
def execMergeRootReady (op : Nat) (root : RootRow) (s : State) : Host.Outcome State Fault Refusal :=
  let b := s.blk
  match b.op? op, b.sems.find? (fun m => m.op == op) with
  | some o, some m =>
    match (m.readyRows b.tick.wall).find? (fun r => o.rowNo r == root.row) with
    | some r =>
      let rest := m.rows.filter (fun x => o.rowNo x != root.row)
      .next (({ s with blk := b.setSem { m with rows := r :: rest } } : State).round 5 [] [(o.d.req, { buf := root.bufErr })])
    | none => .next s
  | _, _ => .next s

/-- `HOG_PENALTY_END`. -/
def execHogPenaltyEnd (port id : Nat) (s : State) : Host.Outcome State Fault Refusal :=
  .next (s.upd (fun _ b =>
    let r := b.requester port id
    if r.cut then b.setRequester port id { r with cut := false, penaltyEnd := 0 } else b))

/-! ### Delivery from the return buffers (R127, R132) -/

/-- The open beat that entered, or enters, an endpoint's return buffer first. -/
def Blk.oldestOut (b : Blk) (e : Nat) : Option OutBeat :=
  (b.outs.filter (fun x => x.opn && x.endpt == e)).foldl (fun m x => match m with
    | some y => if y.due ≤ x.due then some y else some x
    | none => some x) none

/-- Remove the first entry that is `x`. -/
def dropOut (x : OutBeat) : List OutBeat → List OutBeat
  | [] => []
  | y :: ys => if y = x then ys else y :: dropOut x ys

/-- A `TGATHER` whose rows are all delivered completes (08_route_merge.md R176). -/
def Blk.gatherDone (b : Blk) (o : Op) : Blk :=
  if o.taken && b.gather.isEmpty && b.gStaged.isEmpty && decide (o.total ≤ b.gNext) then b.endGather o else b

/-- The oldest buffered beat of an endpoint is delivered. -/
def deliverOut (b : Blk) (x : OutBeat) : Blk :=
  let b1 := { b with outs := dropOut x b.outs, buses := Tab.set (fun _ => ({} : Beat)) b.buses x.endpt x.beat }
  match x.cmd, x.seq with
  | some tn, _ =>
    if byteAt x.beat.sb 0 = 3 then b1
    else { b1 with xfers := b1.xfers.map (fun y : Xfer => if y.tn = tn then { y with delivered := true } else y) }
  | none, some k =>
    let b2 := { b1 with gather := b1.gather.filter (fun e => e.seq != k) }
    match b2.op? x.op with
    | some o => let b3 := b2.gatherFlush 32 o; b3.gatherDone o
    | none => b2
  | none, none => b1.settle x.op

/-- `OPEN_READ_DELIVER`: with `READY` low the beat stays (R127). -/
def execOpenReadDeliver (endpt : Nat) (ready : Bool) (s : State) : Host.Outcome State Fault Refusal :=
  .next (s.cyc (fun st b => match b.oldestOut endpt with
    | some x => if ready && !b.busLow endpt then (deliverOut b x).serve st else b
    | none => b))

/-- An operation whose beat, or command beat, was discarded fails (R132). -/
def Blk.discardOut (b : Blk) (x : OutBeat) : Blk :=
  match b.op? x.op with
  | none => b
  | some o => match b.xfers.find? (fun y => y.op == o.id && !y.orphan) with
    | some y =>
      if x.cmd.isSome && byteAt x.beat.sb 0 == 3 then abortAckTimeout b y
      else b.abandon o y (y.suspended.getD (y.lowRow o)) 0 false
    | none => b.failOpen o false

/-- `EP_READY_TIMEOUT`. -/
def readyTimeout (b : Blk) (e : Nat) : Blk :=
  match b.oldestOut e with
  | none => b
  | some x =>
    let gone := b.outs.filter (fun y => y.opn && y.endpt == e)
    let b1 := { b with outs := b.outs.filter (fun y => !(y.opn && y.endpt == e)) }
    let b2 := b1.beatFault K.EP_TIMEOUTS e x.port 9 x.beat.qen.toNat (some (0x0307, 1))
    gone.foldl (fun b y => b.discardOut y) b2

def execEpReadyTimeout (endpt : Nat) (s : State) : Host.Outcome State Fault Refusal :=
  .next (s.cyc (fun st b => if b.moves && !b.busDark endpt then (readyTimeout b endpt).serve st else b))

/-! ### Handshake faults of the write side (R132, R157, R178, R247) -/

/-- The port of the one operation that a write-side bus can serve, or 0xFF. -/
def busPort (e : Nat) : Nat := match e with | 2 => 4 | 4 => 5 | 8 => 5 | 10 => 4 | _ => 0xFF

/-- `VALID_WITHDRAWN`. -/
def execValidWithdrawn (endpt : Nat) (qen : BitVec 4) (s : State) : Host.Outcome State Fault Refusal :=
  .next (s.upd (fun _ b =>
    if !b.ticking || b.busLow endpt then b
    else
      let b1 := b.beatFault K.EP_PROTO endpt (busPort endpt) 8 qen.toNat (some (0x0306, 1))
      { b1 with withdrawn := endpt :: b1.withdrawn.filter (fun e => e != endpt) }))

/-- `SPURIOUS_VALID`. -/
def execSpuriousValid (endpt : Nat) (qen : BitVec 4) (s : State) : Host.Outcome State Fault Refusal :=
  .next (s.upd (fun _ b =>
    if !b.ticking || b.busLow endpt then b else b.beatFault K.EP_PROTO endpt 0xFF 8 qen.toNat none))

/-- No active operation claims the beat. -/
def Blk.unclaimed (b : Blk) (e : Nat) (bt : Beat) : Bool :=
  match e with
  | 8 => bt.qen != 0 && (b.currentXfer false).isNone
  | 10 => match b.ops.find? (fun o => o.d.opc == 0x51 && (byteAt bt.sb 96).toNat == o.d.chan) with
    | some o => o.taken || (byteAt bt.sb 97).toNat != accessRow o.d o.dstShape o.n
    | none => true
  | 4 => (b.semTarget bt).isNone
  | _ => false

/-- `UNMATCHED_BEAT_DISCARD`: an `LS-I` data beat without a current load, an `LK-I` beat without its `TRECV`, an `SE-M` beat
without its operation. -/
def execUnmatchedBeatDiscard (endpt : Nat) (bt : Beat) (s : State) : Host.Outcome State Fault Refusal :=
  .next (s.upd (fun _ b =>
    if !b.moves || b.busLow endpt || !b.unclaimed endpt bt then b
    else b.beatFault K.EP_PROTO endpt 0xFF 8 bt.qen.toNat none))

end Sys2Proof.Machine
end

