-- ==== Sys2Proof/Machine/Ticks.lean ====
section
/-! DEFINITION. The tick unit (02_tick.md): sync pulses and windows, holds, the first tick, and the work of a tick boundary
(11_sequencer.md R272; 15_states_power.md R354; 16_faults.md R377 to R381). -/

namespace Sys2Proof.Machine

/-! ### Sync (R36 to R40) -/

/-- Length of the current tick in unheld cycles, before an early pulse cuts it (R36). -/
def Blk.tickUnheld (b : Blk) : Nat := b.cfg K.TICK_LEN + b.tick.ext

/-- Bits of `SYNC_STATE`: locked, sync-lost, awaiting first pulse (R56). -/
def Blk.setSync (b : Blk) (i : Nat) (v : Bool) : Blk := b.setReg K.SYNC_STATE (setBit (b.reg K.SYNC_STATE) i v)

/-- One miss (R39). -/
def Blk.syncMiss (b : Blk) : Blk :=
  let n := b.tick.missRun + 1
  let b1 := ({ b with tick := { b.tick with missRun := n, missed := true } }).count K.SYNC_MISSES
  if n = b.cfg K.SYNC_MISS_LIMIT then
    let b2 := ((b1.noteSet 16).setSync 1 true).setSync 0 false
    ({ b2 with tick := { b2.tick with freeRun := true } }).event 0x0102 1 255
  else b1

/-- An in-window pulse by `d` unheld cycles (R37, R38): m, clamped, moves the boundary; with m = 0 it moves nothing (17_worked_tick.md
R393). -/
def Blk.syncMove (b : Blk) (early : Bool) (d : Nat) : Blk :=
  let lim : Int := (b.cfg K.GUARD / 2 : Nat)
  let off := toSigned 16 (b.reg K.SYNC_OFFSET)
  let m := min d 128
  let room := (if early then off + lim else lim - off).toNat
  let k := min m room
  let off' : Int := if early then off - k else off + k
  let b1 := b.setReg K.SYNC_OFFSET (ofSigned 16 off')
  let b2 := { b1 with
    tick := { b1.tick with
      cut := if early then k else b1.tick.cut, ext := if early then b1.tick.ext else k,
      earlySeen := b1.tick.earlySeen || early, lateSeen := b1.tick.lateSeen || !early,
      ended := b1.tick.ended || (early && decide (b.tickUnheld - k ≤ b.tick.unheld)),
      missRun := 0, freeRun := false } }
  let b3 := b2.setSync 0 true
  let b4 := if k < m then (b3.count K.OFFSET_CLAMPS).event 0x0101 0 255 else b3
  let moved : Int := if early then -(k : Int) else k
  if k = 0 then b4 else b4.traceRec 5 2 (leBytes 2 (ofSigned 16 moved) ++ leBytes 2 (ofSigned 16 off'))

/-- An accepted pulse while ticks run (R36). -/
def Blk.syncPulse (b : Blk) : Blk :=
  let u := b.tick.unheld
  let l := b.tickUnheld
  if l ≤ u + b.cfg K.SYNC_WINDOW then
    if b.tick.earlySeen then b.count K.SYNC_EXTRA else b.syncMove true (l - u)
  else if b.tick.lateOpen && decide (u < b.cfg K.SYNC_WINDOW) then
    if b.tick.lateSeen then b.count K.SYNC_EXTRA else b.syncMove false u
  else b.syncMiss

/-! ### The first tick (R35) -/

/-- Logical cycle 0 of the first tick begins: Running. `pulse`: in follow mode the start pulse stood for `TICK_OUT`; a `SYNC_IN` pulse that
is accepted before the start pulse begins the tick too, and no start pulse follows (DESIGN CHOICE, log entry 84). What was granted in
Armed counts in no tick (R136). A tick unit that has failed its comparison fails again (16_faults.md R380; log entry 98). -/
def Blk.firstTick (b : Blk) (pulse : Bool) : Blk :=
  let t := b.tick
  let t1 : TickUnit := { wall := t.wall, tick := b.cfg K.TICK_START % 2 ^ 40, holdIn := t.holdIn }
  let t2 : TickUnit :=
    { t1 with tickOutEnd := if pulse then t.tickOutEnd else t.wall + 4, freezeAt := if t.holdIn then [t.wall] else [] }
  let b1 := { b with
    lc := .running, tick := t2, sched := { b.sched with grants := [] }, flt := { b.flt with firsts := [] },
    ring := { b.ring with hbWall := 0 } }
  let b2 := b1.setReg K.PROG_NOW 0
  let b3 := if pulse then (b2.setSync 0 true).setSync 2 false else b2
  if b3.flt.badTick then b3.cellOut 0x0B01 255 else b3

/-- A `RUN` waits for its first tick. -/
def Blk.awaitsTick (b : Blk) : Bool := b.lc == .armed && b.tick.runAt.isSome

/-- `SYNC_IN_PULSE`: the filter (01_boundary.md R16), then the windows. -/
def syncInPulse (width : Nat) (b : Blk) : Blk :=
  if b.lc == .off || b.cfg K.SYNC_MODE = 0 then b
  else if width < 4 then b.count K.SYNC_GLITCHES
  else if b.awaitsTick then b.firstTick true
  else if b.ticking then b.syncPulse
  else b

def execSyncInPulse (width : Nat) (s : State) : Host.Outcome State Fault Refusal :=
  .next (s.cyc (fun st b => (syncInPulse width b).serve st))

/-- `SYNC_WINDOW_CLOSE` (R39). -/
def execSyncWindowClose (s : State) : Host.Outcome State Fault Refusal :=
  .next (s.upd (fun _ b =>
    if !b.ticking || b.cfg K.SYNC_MODE = 0 || !b.tick.lateOpen then b
    else
      let b1 := if b.tick.lateSeen || b.tick.missed then b else b.syncMiss
      { b1 with tick := { b1.tick with lateOpen := false, missed := false } }))

/-- `FIRST_TICK_START` (R35). -/
def execFirstTickStart (s : State) : Host.Outcome State Fault Refusal :=
  .next (s.cyc (fun st b => if b.awaitsTick then (b.firstTick (b.cfg K.SYNC_MODE == 1)).serve st else b))

/-- `START_PULSE` (01_boundary.md R17). -/
def execStartPulse (s : State) : Host.Outcome State Fault Refusal :=
  .next (s.upd (fun _ b =>
    if b.awaitsTick && b.cfg K.SYNC_MODE == 1 && !b.tick.startDriven then
      { b with tick := { b.tick with startDriven := true, tickOutEnd := b.tick.wall + 4 } } else b))

/-- `RUN_PULSE_TIMEOUT` (R35): the `RUN` is abandoned. -/
def execRunPulseTimeout (s : State) : Host.Outcome State Fault Refusal :=
  .next (s.upd (fun _ b =>
    if b.awaitsTick && b.cfg K.SYNC_MODE == 1 then
      (({ b with tick := { b.tick with runAt := none, startDriven := false } }).setSync 2 false).event 0x0103 1 255
    else b))

/-! ### Holds (01_boundary.md R18; R42 to R48) -/

/-- `HOLD_IN_RISE`: in a state without ticks the pin has no effect (R46). -/
def execHoldInRise (s : State) : Host.Outcome State Fault Refusal :=
  .next (s.upd (fun _ b =>
    if b.tick.holdIn then b
    else { b with tick := { b.tick with
      holdIn := true, holdSeen := b.tick.holdSeen || b.tick.holdOut.isSome,
      freezeAt := if b.ticking then b.tick.freezeAt ++ [b.tick.wall + 3] else b.tick.freezeAt } }))

/-- `HOLD_IN_FALL`: with a rise in the same cycle it makes no held cycle (01_boundary.md R18). -/
def execHoldInFall (s : State) : Host.Outcome State Fault Refusal :=
  .next (s.upd (fun _ b =>
    if !b.tick.holdIn then b
    else if b.ticking && b.tick.freezeAt.getLast? == some (b.tick.wall + 3) then
      { b with tick := { b.tick with holdIn := false, endHold := false, freezeAt := b.tick.freezeAt.dropLast } }
    else { b with tick := { b.tick with
      holdIn := false, endHold := false, resumeAt := if b.ticking then b.tick.resumeAt ++ [b.tick.wall + 3] else b.tick.resumeAt } }))

/-- One held cycle (R47). -/
def Blk.heldCycle (b : Blk) : Blk :=
  let b1 := if b.tick.heldTick = 0 then b.count K.HOLD_TICKS else b
  { b1 with tick := { b1.tick with heldTick := b1.tick.heldTick + 1, heldNow := b1.tick.heldNow + 1 } }.count K.HOLD_CYCLES 1 64

/-- `COUNTER_FREEZE` (R46): the first held cycle of a hold. -/
def counterFreeze (b : Blk) : Blk :=
  if !b.ticking || b.tick.frozen || b.tick.freezeAt.isEmpty then b
  else
    let b1 := { b with
      lc := if b.lc = LC.running then LC.holding else b.lc,
      tick := { b.tick with frozen := true, heldNow := 0, freezeAt := b.tick.freezeAt.tail } }
    (b1.heldCycle).traceRec 3 2 [BitVec.ofNat 8 b1.holdCauses]

def execCounterFreeze (s : State) : Host.Outcome State Fault Refusal := .next (s.upd (fun _ b => counterFreeze b))

/-- `COUNTER_RESUME` (R46). -/
def counterResume (b : Blk) : Blk :=
  if !b.ticking || !b.tick.frozen || b.tick.resumeAt.isEmpty then b
  else
    let b1 := { b with
      lc := if b.lc = LC.holding then LC.running else b.lc,
      tick := { b.tick with frozen := false, heldNow := 0, resumeAt := b.tick.resumeAt.tail } }
    b1.traceRec 4 2 (leBytes 4 b.tick.heldNow)

def execCounterResume (s : State) : Host.Outcome State Fault Refusal := .next (s.upd (fun _ b => counterResume b))

/-- `HOLD_NETWORK_FAULT` (R45). -/
def execHoldNetworkFault (s : State) : Host.Outcome State Fault Refusal :=
  .next (s.upd (fun _ b =>
    if b.ticking && b.tick.holdOut.isSome && !b.tick.holdSeen && !b.tick.netFault then
      ({ b with tick := { b.tick with netFault := true } }).event 0x0104 1 255 else b))

/-- `TICK_ABORT` (R47). -/
def execTickAbort (s : State) : Host.Outcome State Fault Refusal :=
  .next (s.upd (fun _ b =>
    if b.ticking && b.tick.frozen then (b.count K.TICK_ABORTS).safeEvent 0x0106 2 b.holdCauses else b))

/-! ### The regions of a tick -/

/-- Every tile that waits in the replay queue takes the give-up commit (R220, R272). -/
def Blk.giveUpAll (b : Blk) : Blk := (b.replayQ.filterMap b.op?).foldl (fun b o => b.giveUp o false) b

/-- `GUARD_BEGIN`. -/
def execGuardBegin (s : State) : Host.Outcome State Fault Refusal :=
  .next (s.cyc (fun st b =>
    if b.moving && !b.tick.guardDone then
      let b1 := b.giveUpAll
      ({ b1 with tick := { b1.tick with guardDone := true } }).serve st
    else b))

/-- `FAULT_SLACK_END`: hold cause bit 1 for the transfers of this tick, those carried into it among them (R33, R42; 07_rows_in_out.md
R165). -/
def execFaultSlackEnd (s : State) : Host.Outcome State Fault Refusal :=
  .next (s.cyc (fun st b =>
    if b.moving && !b.tick.slackDone then
      let b1 := { b with
        tick := { b.tick with slackDone := true },
        xfers := b.xfers.map (fun x : Xfer =>
          if x.faulted.isSome && (b.op? x.op).any (fun o : Op => o.role == Role.main) then { x with slackHold := true } else x) }
      b1.serve st
    else b))

/-! ### Scrubs (03_tile_registers.md R75, 04_banks.md R95) -/

/-- One scrub cycle of a slot: one row in each group in service. With the last one a held `TCFG` of the slot takes effect. -/
def scrubStep (s : Nat) (m : Store × Blk) : Store × Blk :=
  let n := if m.2.half then 4 else 8
  let r := Tab.get (fun _ => 0) m.2.scrubRow s
  let m1 := scrubRows s r n m
  let b := m1.2
  if r + n < 64 then (m1.1, { b with scrubRow := Tab.set (fun _ => 0) b.scrubRow s (r + n) })
  else
    let b1 := { (b.scrubbed s) with heldCfg := b.heldCfg.filter (fun d => d.slot != s) }
    (m1.1, (b.heldCfg.filter (fun d => d.slot == s)).foldl (fun b d => b.configureBy d) b1)

/-- The slot whose scrub runs in this cycle: that of a held `TCFG` in held cycles, and while no tick runs that of a held `TILE_CONFIG`; else
one that an earlier tick's end has cut, else the lowest pending one, in unheld cycles of `GUARD` and of guard extensions. It runs beside an
open write granted in a held cycle of `GUARD` whose bank cycle this is (DESIGN CHOICE, log entry 92). -/
def Blk.scrubNow (b : Blk) : Option Nat :=
  if b.tick.frozen then b.heldScrub
  else if !b.ticking then (if b.groupsActive then (b.heldCfg.head?).map (fun d => d.slot) else none)
  else if b.ticking && b.groupsActive && (b.inGuard || b.inExt) then
    let ps := (List.range 128).filter (fun s => (b.tile s).scrubPend)
    match ps.find? (fun s => Tab.get (fun _ => 0) b.scrubRow s != 0) with
    | some s => some s
    | none => ps.head?
  else none

/-- `SCRUB_SLOT`: one scrub cycle. -/
def execScrubSlot (s : State) : Host.Outcome State Fault Refusal :=
  .next (match s.blk.scrubNow with
    | none => s
    | some k =>
      let m := scrubStep k (s.mem, s.blk)
      ({ s with mem := m.1, blk := m.2 } : State).upd (fun st b => b.serve st))

/-! ### The tick boundary (11_sequencer.md R272) -/

/-- Quarter positions of a port that the current program's schedule owns (R136); those that replays use in the recompute reserve are not
counted (DESIGN CHOICE, log entry 103). -/
def schedLoad (st : Store) (b : Blk) (port : Nat) : Nat :=
  let p := b.reg K.PROG_NOW
  let prog := if b.sched.on then (st.program p).filter (fun x => isScheduled x.2) else []
  ((prog.flatMap (fun x => accessesOf b (loadShape st b p x.1) x.1 x.2 0)).map (fun a =>
    if a.port = port then a.qs.length * a.span else 0)).sum

/-- Item 1: the tick's status. -/
def closeStatus (st : Store) (b : Blk) : Blk :=
  let used := if b.replayNext ≤ b.reserveStart then 0 else b.replayNext - b.reserveStart
  let load := (List.range 6).flatMap (fun p => leBytes 4 (schedLoad st b p) ++ leBytes 4 (Tab.get (fun _ => 0) b.sched.grants p))
  (((b.setReg K.LAST_STRETCH (min b.tick.heldTick 0xFFFFFFFF)).setRec K.PORT_LOAD load).setReg K.RECOMP_USED used).setReg
    K.ISSUE_LEAD_MIN (b.sched.leadMin.getD 0xFFFFFFFF)

/-- An open operation on a fenced port fails (06_sumac.md R148); a row transfer is pre-empted. -/
def Blk.failFenced (b : Blk) (o : Op) : Blk :=
  match b.xfers.find? (fun x => x.op == o.id && !x.orphan) with
  | some x => b.abortXfer x.tn 3
  | none => b.failOpen o false

/-- Item 4 for one port that has failed (16_faults.md R378). -/
def Blk.fencePort (b : Blk) (p : Nat) : Blk :=
  let b1 := (((b.setReg K.PORT_FENCED (setBit (b.reg K.PORT_FENCED) p true)).event 0x0309 2 p)).invalidateImage
  (b1.ops.filter (fun o => o.opn && (o.d.port == p || (isLoop o.d.opc && o.d.wport == p)))).foldl (fun b o =>
    if b.ops.any (fun x => x.id == o.id) then b.failFenced o else b) b1

/-- The merge unit goes out of service (R379). -/
def Blk.mergeOut (b : Blk) : Blk :=
  let b1 := ((b.setReg K.UNITS_OUT 1).event 0x0606 2 255).invalidateImage
  let b2 := { b1 with flt := { b1.flt with mergeFailing := false } }
  (b2.ops.filter (fun o => o.role == .main && [0x31, 0x32, 0x33].contains o.d.opc)).foldl (fun b o => b.failSem o) b2

/-- Item 4: `EP_DISABLE`, fenced ports, the merge unit. -/
def Blk.takeUnits (b : Blk) : Blk :=
  let ps := (List.range 6).filter (fun p => b.flt.failing.contains p && !b.fenced p)
  let b1 := { b with epOff := b.cfg K.EP_DISABLE, flt := { b.flt with failing := [] } }
  let b2 := ps.foldl (fun b p => b.fencePort p) b1
  (if b2.flt.mergeFailing then b2.mergeOut else b2).svSettle

/-- Item 5: a save or restore that is due; transfers of its context are abandoned (15_states_power.md R368). -/
def Blk.takeSR (b : Blk) : Blk :=
  if b.sr.phase ≠ 1 then b
  else if b.sr.late then { b with sr := { b.sr with late := false } }
  else
    let own (x : Xfer) : Bool := !x.orphan && (b.op? x.op).any (fun o => o.d.slot / 64 == b.sr.ctx)
    ((b.xfers.filter own).foldl (fun b x => b.abortXfer x.tn 2) b).srStart

/-- Item 6, and one tick of the heartbeat period (13_evien.md R323). -/
def Blk.heartTick (b : Blk) : Blk :=
  let n := b.ring.hbCount + 1
  let due := b.rw K.HEARTBEAT_TICKS != 0 && decide (b.rw K.HEARTBEAT_TICKS ≤ n)
  { b with ring := { b.ring with hbCount := if due then 0 else n, beatDue := b.ring.beatDue || due } }

/-- Unit states as a pair of Idle masks names them; groups are half groups in half mode (14_dictionary.md R342). Units gate `off` cycles
from now, and are awake `lat` cycles from now. -/
def Blk.applyIdle (b : Blk) (ports groups : Option Nat) (off lat : Nat) : Blk :=
  let b1 := match ports with
    | some v => (List.range 6).foldl (fun b p => b.setIdle p (bit v p) off lat) b
    | none => b
  match groups with
  | some v => (b1.pwrUnits 0 255).foldl (fun b u =>
      let g := u - 8
      let i := if b.half then ((List.range 4).find? (fun h => bits (b.reg K.HALF_GROUPS) (8 * h + 7) (8 * h) == g)).getD 0 else g
      b.setIdle u (bit v i) off lat) b1
  | none => b1

/-- Idle changes written while ticks run, in force for the first cycle of the tick (R343). -/
def Blk.takeIdle (b : Blk) : Blk :=
  let b1 := b.applyIdle b.pwr.nextPorts b.pwr.nextGroups 0 4
  { b1 with pwr := { b1.pwr with nextPorts := none, nextGroups := none } }

/-- Nothing is left that Draining waits for (15_states_power.md R354). -/
def Blk.drained (b : Blk) : Bool :=
  b.ops.all (fun o => !o.opn) && b.xfers.all (fun x => x.orphan) && b.sems.isEmpty && b.bufUsed == 0 && b.writes.isEmpty
  && b.sr.phase == 0

/-- The drain is forced at its 16th boundary (R354). A save or restore whose image still has a transfer active ends with the abandonment
of that transfer. -/
def Blk.forceDrain (b : Blk) : Blk :=
  let b1 := (b.xfers.filter (fun x => !x.orphan)).foldl (fun b x => b.abortXfer x.tn 2) b
  let busy (o : Op) : Bool := b1.xfers.any (fun x => x.op == o.id && !x.orphan)
  let image := b1.ops.any (fun o => o.role == .image && busy o)
  let b2 := (b1.ops.filter (fun o => o.opn && !busy o && !(image && b1.sr.op == some o.id))).foldl (fun b o =>
    if b.ops.any (fun x => x.id == o.id) then b.failOpen o false else b) b1
  let b3 := { (if image then b2 else b2.srEnd 5) with sems := [] }
  { b3 with pins := { b3.pins with drainForced := true } }.event 0x0503 1 255

/-- Number of tick programs of the image, never 0. -/
def Store.progCount (st : Store) : Nat := max 1 st.progs

/-- The `STOP` that waits chooses this boundary (14_dictionary.md R348, R351). -/
def stopHere (st : Store) (b : Blk) : Bool :=
  b.pins.stopPend == 2 || (b.pins.stopPend == 1 && (b.tick.since + 1) % st.progCount == 0)

/-- Draining begins (R354): the schedule thread issues and releases nothing from here on. -/
def Blk.toDraining (b : Blk) : Blk :=
  { b with lc := .draining, sched := { b.sched with on := false, queue := [] },
           pins := { b.pins with stopPend := 0, drainN := 0, drainForced := false } }

/-- Logical cycle 0 of the next tick. -/
def newTick (st : Store) (b : Blk) : Blk :=
  let t := b.tick
  let t1 : TickUnit :=
    { t with tick := (t.tick + 1) % 2 ^ 40, lcyc := 0, unheld := 0, ext := 0, cut := 0, since := t.since + 1, heldTick := 0,
             tickOutEnd := t.wall + 4 }
  let t2 : TickUnit :=
    { t1 with earlySeen := false, lateSeen := t.earlySeen, lateOpen := b.cfg K.SYNC_MODE == 1, ended := false,
              endHold := false, guardDone := false, slackDone := false }
  let left := st.progLen (b.reg K.PROG_NOW) - b.sched.next
  let sc : Sched := { on := b.sched.on, queue := b.sched.queue.drop left }
  let b1 := { b with tick := t2, sched := sc, replayNext := 0, flt := { b.flt with firsts := [] } }
  b1.setReg K.PROG_NOW ((t.since + 1) % st.progCount)

/-- What a boundary means for the lifecycle: drained, forced, or Draining begun by a `STOP` or a degradation (R381). -/
def boundaryState (st : Store) (degraded : Bool) (b : Blk) : Blk :=
  if b.lc = .draining then
    let b1 := { b with pins := { b.pins with drainN := b.pins.drainN + 1 } }
    if b1.drained then b1.toConfigured
    else if 16 ≤ b1.pins.drainN && !b1.pins.drainForced then b1.forceDrain.forcedEnd
    else b1
  else if degraded || stopHere st b then b.toDraining
  else if 3 ≤ b.pins.stopPend then { b with pins := { b.pins with stopPend := b.pins.stopPend - 2 } }
  else b

/-- The boundary waits: `HOLD_IN` has been high since logical cycle `TICK_LEN` - 1 (02_tick.md R46), or is high and that cycle is still to
come (log entry 11). -/
def Blk.boundaryWaits (b : Blk) : Bool := b.tick.holdIn && (b.tick.endHold || !b.tick.ended)

/-- `TICK_BOUNDARY` (R46, R272). -/
def tickBoundary (st : Store) (b : Blk) : Blk :=
  if !b.moving || b.boundaryWaits then b
  else
    let b1 := (closeStatus st b).giveUpAll.takeBanks
    if !b1.ticking then b1
    else
      let b2 := b1.takeUnits
      let degraded := b2.reg K.HALF_MODE != b.reg K.HALF_MODE || b2.reg K.PORT_FENCED != b.reg K.PORT_FENCED
        || b2.reg K.UNITS_OUT != b.reg K.UNITS_OUT
      let b3 := boundaryState st degraded (b2.takeSR.heartTick.takeIdle)
      if b3.ticking then newTick st b3 else b3

def execTickBoundary (s : State) : Host.Outcome State Fault Refusal :=
  .next (s.cyc (fun st b => (tickBoundary st b).serve st))

end Sys2Proof.Machine
end

