-- ==== Sys2Proof/Machine/Dict.lean ====
section
/-! DEFINITION. The object dictionary as it reads (14_dictionary.md R329 to R350): the value of every entry, those derived from the
state they report among them, and the records of the dictionary store that hold the RW and RW-CFG values (R334;
12_service_matrix.md R308). -/

namespace Sys2Proof.Machine

/-! ### Derived values -/

/-- `LC_STATE` (15_states_power.md R352); Off has no code and answers no request. -/
def LC.code : LC → Nat
  | .off => 0 | .boot => 1 | .configured => 2 | .armed => 3 | .running => 4 | .holding => 5 | .draining => 6 | .safe => 7

/-- Unit `u` is Idle, or Active only once its wake is over (R344). -/
def Blk.idleUnit (b : Blk) (u : Nat) : Bool := !({ b with pwr := { b.pwr with gated := false } }.active u)

/-- `PWR_IDLE_NOW` (R344); in half mode bit 8 + h is that of half group Hh, as in `PWR_IDLE_GROUPS` (R342). -/
def Blk.idleNow (b : Blk) : Nat :=
  let ports := ((List.range 6).map (fun p => if b.idleUnit p then 2 ^ p else 0)).sum
  let groups := if b.half then ((List.range 4).map (fun h =>
      if b.idleUnit (8 + bits (b.reg K.HALF_GROUPS) (8 * h + 7) (8 * h)) then 2 ^ (8 + h) else 0)).sum
    else ((List.range 8).map (fun g => if b.idleUnit (8 + g) then 2 ^ (8 + g) else 0)).sum
  ports + groups

/-- Decimal digits as ASCII bytes. -/
def decimal : Nat → Nat → List Byte
  | 0, _ => []
  | n + 1, v => (if v < 10 then [] else decimal n (v / 10)) ++ [BitVec.ofNat 8 (48 + v % 10)]

/-- A firmware version as major.minor.build (R339). -/
def versionText (v : Nat) : List Byte :=
  decimal 5 (v / 2 ^ 24) ++ [46] ++ decimal 5 (v / 2 ^ 16 % 256) ++ [46] ++ decimal 5 (v % 2 ^ 16)

/-- `SW_VERSION` (R339): empty before the service firmware runs. -/
def Blk.swVersion (b : Blk) : List Byte :=
  if !b.pins.fwStarted then []
  else [83] ++ versionText (b.reg K.SVC_VERSION) ++ [32, 82] ++ versionText (b.reg K.RT_VERSION)

/-- The 12 bytes of an entry of the tested-pair table (11_sequencer.md R287). -/
def pairBytes (p : Nat × Nat × Nat × Nat) : List Byte :=
  leBytes 4 p.1 ++ leBytes 4 p.2.1 ++ [BitVec.ofNat 8 p.2.2.1] ++ leBytes 2 p.2.2.2 ++ [0]

/-- `TILE_STATUS` (03_tile_registers.md R68, R86). -/
def Blk.tileTable (b : Blk) : List Byte := (List.range 128).flatMap (fun s => (b.tile s).word)

/-- Row of a gather's next transfer: that of an entry, or the index row, which comes last too while none can be made (08_route_merge.md
R175). -/
def Blk.gatherRow (b : Blk) (o : Op) : Nat :=
  let entry (e : GEntry) : Nat := e.idx % 64
  let index := (o.indexRow b.gNext).1
  match gatherCand b [] o o.reqId with
  | some c => if c.pick = 0 then index else ((b.gather.find? (fun e => e.seq + 1 == c.pick)).map entry).getD 0
  | none => ((b.gather.find? (fun e => e.beat.isNone && !e.sent)).map entry).getD index

/-- Row and quarter of an operation's next transfer (06_sumac.md R139): a row-quad is named by its first row; the next transfer of an
SE-M operation is its ready root write, and names no row while it waits for a beat (log entry 94). -/
def Blk.progress (b : Blk) (o : Op) : Nat × Nat :=
  let sh := if readsTile o.d.opc then o.srcShape else o.dstShape
  if o.role = .preload then (((b.preloadRow o).map (fun x => x.2.2.row)).getD 0, 0)
  else if [0x31, 0x32, 0x33].contains o.d.opc then
    ((b.sems.find? (fun m => m.op == o.id)).bind (fun m => ((m.readyRows b.tick.wall).head?).map (fun r => (r.row, 0)))).getD (0, 0)
  else match o.d.opc with
  | 0x60 => ((b.sr.todo.head?).map (fun x => (x.2, 0))).getD (0, 0)
  | 0x61 => ((b.sr.hand.bind (fun x => x.rows.head?)).map (fun r => (r, 0))).getD (0, 0)
  | 0x21 => let (r, q) := quadOf o.d sh o.n; (r, q)
  | 0x30 => (b.gatherRow o, 0)
  | _ => (accessRow o.d sh o.n, accessQtr o.d sh o.n)

/-- `REQ_STATE` of the requester that `REQ_SELECT` names (06_sumac.md R151); without a head its deadline fields read zero. -/
def Blk.reqState (b : Blk) : List Byte :=
  let port := b.reg K.REQ_SELECT / 16
  let id := b.reg K.REQ_SELECT % 16
  let r := b.requester port id
  let head := r.queue.head?.bind b.op?
  let sv := id == 15 && b.svNextPort == some port
  let pending := head.isSome || sv
  let d := if pending then b.biased port id else 0
  let f (c : Bool) (i : Nat) : Nat := if c then 2 ^ i else 0
  let prog : Nat × Nat := match head with
    | some o => b.progress o
    | none => if sv then ((b.svNow.bind (fun w => w.jobs.head?)).map (fun j => j.2)).getD (0, 0) else (0, 0)
  leBytes 4 (d + f (pending && d == openCycle) 31) ++ [BitVec.ofNat 8 r.aging] ++ leBytes 2 r.hog
  ++ [BitVec.ofNat 8 (f pending 0 + f (pending && b.overdue port id) 1 + f r.cut 2 + f r.missed 3)]
  ++ leBytes 4 (if r.cut then min (b.cfg K.HOG_PENALTY) (r.penaltyEnd - b.tick.wall) else 0)
  ++ [BitVec.ofNat 8 prog.1, BitVec.ofNat 8 prog.2, BitVec.ofNat 8 (if sv then 1 else r.queue.length), 0]

/-- The value of a scalar entry as it reads. -/
def Blk.scalar (b : Blk) (k : Nat) : Nat :=
  if k = K.TICK_NOW then b.stamp.toNat
  else if k = K.HOLD_CAUSES then b.holdCauses
  else if k = K.MERGE_BUF_USED then b.bufUsed
  else if k = K.ANISE_COLD_SLOTS then b.coldSlots
  else if k = K.ERROR_REG then b.errorReg
  else if k = K.LC_STATE then b.lc.code
  else if k = K.FAULT_OUT_NOW then b.flt.out
  else if k = K.MAP_CTRL then b.mapCtrl
  else if k = K.MX_LOCK_STATUS then b.lockStatus
  else if k = K.PWR_IDLE_NOW then b.idleNow
  else if k = K.NODE_ADDR then Config.nodeAddr.toNat
  else if k = K.SERIAL then Config.serial.toNat
  else if k = K.TP_COUNT then Config.testedPairs.length
  else if k = K.NEG_LEVEL then b.negLevel
  else
    -- sub-index 0x00 of a record object reads its highest sub-index (R329)
    match objects.find? (fun o => 256 * o.1 == k && o.2 != 0 && o.1 != 0x1003) with
    | some o => o.2
    | none => b.reg k

/-- The bytes of a string or DOMAIN entry of at most `n` bytes as it reads. -/
def domainBytes (st : Store) (b : Blk) (k n : Nat) : List Byte :=
  if k = K.DEVICE_NAME then [68, 111, 108, 117, 111]
  else if k = K.HW_VERSION then [49, 46, 48, 32, 65, 49]
  else if k = K.SW_VERSION then b.swVersion
  else if k = K.TP_TABLE then Config.testedPairs.flatMap pairBytes
  else if k = K.TILE_STATUS then b.tileTable
  else if k = K.TILE_STATUS_SEL then (b.tile (b.reg K.TILE_SELECT)).word
  else if k = K.REQ_STATE then b.reqState
  else if k = K.BANK_MAP then b.bankMapBytes
  else if k = K.CLOVE_SEL then padTo (b.cloveSlot (b.reg K.ANISE_SELECT)) 16
  else if k = K.ANISE_SLOT then padTo (b.aniseSlot (b.reg K.ANISE_SELECT)) 32
  else if k = K.ANISE_CKPT_LO then readTarget st b 4 0 65536
  else if k = K.ANISE_CKPT_HI then readTarget st b 4 65536 65536
  else if k = K.CLOVE_CKPT then readTarget st b 4 131072 65536
  else if k = K.IMAGE_LO then st.img 0 65536
  else if k = K.IMAGE_HI then st.img 65536 65536
  else if k = K.TRACE_0 then readTarget st b 6 0 65536
  else if k = K.TRACE_1 then readTarget st b 6 65536 65536
  else if k = K.TRACE_2 then readTarget st b 6 131072 65536
  else if k = K.TRACE_3 then readTarget st b 6 196608 65536
  else b.record k n

/-- The value of an entry as it reads, as bytes. -/
def entryBytes (st : Store) (b : Blk) (e : Entry) : List Byte :=
  match e.typ with
  | .uns => leBytes e.lo (b.scalar e.key)
  | .int => leBytes e.lo (b.scalar e.key)
  | _ => domainBytes st b e.key e.hi

/-- Entries that a segmented read reads live, unit by unit: the first byte of each in its matrix target (R351). -/
def liveEntry (k : Nat) : Option (Nat × Nat) :=
  if k = K.ANISE_CKPT_LO then some (4, 0)
  else if k = K.ANISE_CKPT_HI then some (4, 65536)
  else if k = K.CLOVE_CKPT then some (4, 131072)
  else if k = K.TRACE_0 then some (6, 0)
  else if k = K.TRACE_1 then some (6, 65536)
  else if k = K.TRACE_2 then some (6, 131072)
  else if k = K.TRACE_3 then some (6, 196608)
  else none

/-- Bytes of an entry's value as a segmented read moves it. -/
def readSize (st : Store) (b : Blk) (e : Entry) : Nat :=
  if (liveEntry e.key).isSome then 65536 else (entryBytes st b e).length

/-! ### The records of the dictionary store (R334; 12_service_matrix.md R308, R309) -/

/-- An entry whose value a record holds: RW and RW-CFG scalars but the three selects. -/
def hasRecord (e : Entry) : Bool :=
  (e.acc == .rw || e.acc == .cfg) && (e.typ == .uns || e.typ == .int)
  && !([K.REQ_SELECT, K.TILE_SELECT, K.ANISE_SELECT].contains e.key)

/-- The bytes of a committed record. -/
def recordBytes (e : Entry) (v : Nat) : List Byte :=
  leBytes 2 (e.key / 256) ++ [BitVec.ofNat 8 (e.key % 256), 1] ++ leBytes 4 e.lo ++ padTo (leBytes e.lo v) (roundUp e.lo 8)

/-- Write an entry's record whole: it is committed. -/
def putRecord (e : Entry) (v : Nat) (m : Store × Blk) : Store × Blk :=
  if !hasRecord e then m
  else
    ({ m.1 with dict := Mem.write m.1.dict (Config.recordFirst e.key) (recordBytes e v) },
      { m.2 with mx := { m.2.mx with
          uncommitted := m.2.mx.uncommitted.filter (fun k => k != e.key),
          fills := m.2.mx.fills.filter (fun f => f.1 != 4096 + e.key) } })

/-- The service firmware places the records that are not in the store yet. -/
def placeRecords (m : Store × Blk) : Store × Blk :=
  (entryRows.filter hasRecord).foldl (fun m e =>
    if Mem.read m.1.dict (Config.recordFirst e.key) 3 = leBytes 2 (e.key / 256) ++ [BitVec.ofNat 8 (e.key % 256)] then m
    else putRecord e (m.2.reg e.key) m) m

/-- The record of entry `k` is uncommitted. -/
def Blk.uncommitted (b : Blk) (k : Nat) : Bool := b.mx.uncommitted.contains k

/-- Store the value of a scalar entry. -/
def storeScalar (e : Entry) (v : Nat) (m : Store × Blk) : Store × Blk := putRecord e v (m.1, m.2.writeReg e.key v)

end Sys2Proof.Machine
end

