-- ==== Sys2Proof/Machine/Power.lean ====
section
/-! DEFINITION. Power states of the data path (15_states_power.md R359 to R363): the block-wide changes, the wake, the loss of
the rail, and the Idle entries (14_dictionary.md R343). -/

namespace Sys2Proof.Machine

/-- The tile status table is cleared: every slot is dead. A tile whose `STATE` changes with it makes its record (16_faults.md R389). -/
def Blk.clearTiles (b : Blk) : Blk :=
  let b1 := b.tiles.foldl (fun b x => b.setTile 0 x.1 { x.2 with state := .empty, rowValid := 0 }) b
  { b1 with tiles := b.tiles.map (fun x => (x.1, { gen := nextGen false x.2.gen })) }

/-- Both Idle entries become 0, and every unit Active. -/
def allActive (m : Store × Blk) : Store × Blk :=
  let off (k : Nat) (m : Store × Blk) : Store × Blk := match entryAt k with
    | some e => storeScalar e 0 m
    | none => m
  let m1 := off K.PWR_IDLE_PORTS (off K.PWR_IDLE_GROUPS m)
  let b := m1.2
  (m1.1, { b with pwr := { b.pwr with
    portsIdle := 0, groupsIdle := 0, wakes := [], sleeps := [], nextPorts := none, nextGroups := none } })

/-- `PWR_NOW` with its bit 7. -/
def Blk.setPwrNow (b : Blk) (v : Nat) (wait : Bool) : Blk := b.setReg K.PWR_NOW (v + if wait then 128 else 0)

/-- A change waits for `PWR_ACK` from now on; the rail leaves its level. -/
def Blk.awaitAck (b : Blk) (req : Nat) : Blk :=
  { b with pwr := { b.pwr with req := req, ack := false, waitAck := some b.tick.wall, timedOut := false, wakeEnd := none } }

/-- The `SV` writes in flight complete. -/
def landWrites (s : State) : State := s.blk.writes.foldl (fun s w => rowLands s w) s

/-- Entry to Retain (`v` = 2) or Off (3), as far as step 3 (R362). -/
def enterBlock (v : Nat) (s : State) : State :=
  (landWrites s).upd (fun _ b =>
    let b1 := { b with pwr := { b.pwr with gated := true } }
    let b2 := b1.setPwrNow (b1.reg K.PWR_NOW % 128) true
    let b3 := if v = 3 then b2.clearTiles else b2
    b3.awaitAck (v - 1))

/-- In Off the arrays lose their contents. -/
def loseArrays (v : Nat) (s : State) : State :=
  if v = 3 then { s with mem := { s.mem with data := [], side := [], marks := [] } } else s

/-- A wake, as far as step 1 (R363). -/
def Blk.wakeBlock (b : Blk) (old : Nat) : Blk :=
  let b1 := b.setPwrNow (b.reg K.PWR_NOW % 128) true
  { (b1.awaitAck 0) with pwr := { (b1.awaitAck 0).pwr with fromOff := old == 3 } }

/-- A write of `PWR_BLOCK` that is accepted; the state already requested changes nothing. -/
def doPwrBlock (v : Nat) (s : State) : State :=
  let old := s.blk.reg K.PWR_BLOCK
  if v = old then s
  else if v = 0 then s.upd (fun _ b => b.wakeBlock old)
  else loseArrays v (enterBlock v s)

/-- A power change whose `PWR_ACK` has risen goes on (R362, R363); none in Boot, where it waits for the end of the boot (R370). -/
def Blk.ackTaken (b : Blk) : Blk :=
  if b.pwr.waitAck.isNone || !b.pwr.ack || b.lc == .off || b.lc == .boot then b
  else
    let b1 := { b with pwr := { b.pwr with waitAck := none, timedOut := false } }
    if b1.pwr.req ≠ 0 then b1.setPwrNow (b1.reg K.PWR_BLOCK) false
    else
      let b2 := b1.setPwrNow (b1.reg K.PWR_NOW % 128) false
      { b2 with pwr := { b2.pwr with wakeEnd := some (b2.tick.wall + if b2.pwr.fromOff then 8500 else 2048) } }

/-- `PWR_ACK_RISE`. -/
def pwrAckRise (b : Blk) : Blk := { b with pwr := { b.pwr with ack := true } }.ackTaken

def execPwrAckRise (s : State) : Host.Outcome State Fault Refusal := .next (s.upd (fun _ b => pwrAckRise b))

/-- `PWR_ACK_TIMEOUT` (01_boundary.md R21): once for each change. -/
def pwrAckTimeout (b : Blk) : Blk :=
  if b.pwr.waitAck.isNone || b.pwr.ack || b.pwr.timedOut || b.lc == .off then b
  else (({ b with pwr := { b.pwr with timedOut := true } }).count K.PWR_ACK_TIMEOUTS).event 0x030C 1 255

def execPwrAckTimeout (s : State) : Host.Outcome State Fault Refusal := .next (s.upd (fun _ b => pwrAckTimeout b))

/-- `RAIL_LOST`: `PWR_ACK` falls while `PWR_REQ` is 00 and no change waits for it. -/
def railLost (b : Blk) : Blk :=
  let b1 := { b with pwr := { b.pwr with ack := false } }
  if b1.lc == .off || b1.pwr.req ≠ 0 || b1.pwr.waitAck.isSome then b1 else b1.cellOut 0x0B03 255

def execRailLost (s : State) : Host.Outcome State Fault Refusal := .next (s.upd (fun _ b => railLost b))

/-- Zeros with valid check bits in both arrays of every spare bank that serves no logical bank (04_banks.md R106). -/
def clearSpares (b : Blk) (st : Store) : Store :=
  let free := [32, 33].filter (fun p => (List.range 32).all (fun l => b.bankMap l != p))
  let keep (per : Nat) (c : Host.Cell) : Bool := !free.contains (c.1 / per)
  { st with data := st.data.filter (keep 262144), side := st.side.filter (keep 32768),
            marks := st.marks.filter (fun c => !free.contains (if c.1 < 2097152 then c.1 / 32768 else (c.1 - 2097152) / 4096)) }

/-- The data-path rail is at full level, and no change of it is under way. -/
def Blk.railFull (b : Blk) : Bool := b.pwr.req == 0 && b.pwr.waitAck.isNone && !b.pwr.gated

/-- `WAKE_COMPLETE`; a wake that ends in Boot completes after the boot (R370). Spares are cleared in a wake from Off, and where boot step 2
has left them (04_banks.md R106; 11_sequencer.md R278). -/
def wakeComplete (s : State) : State :=
  if s.blk.pwr.wakeEnd.isNone || s.blk.lc == .boot then s
  else
    let m := allActive (s.mem, s.blk)
    let b := m.2
    { s with
      mem := if b.pwr.fromOff || b.pwr.spareDue then clearSpares b m.1 else m.1,
      blk := { b with pwr := { b.pwr with wakeEnd := none, gated := false, fromOff := false, spareDue := false } }.setPwrNow 0 false }

def execWakeComplete (s : State) : Host.Outcome State Fault Refusal := .next (wakeComplete s)

/-- A write of `PWR_IDLE_PORTS` or `PWR_IDLE_GROUPS` that is accepted (R343): it is in force 2 cycles later (R333), or at the boundary. -/
def Blk.writeIdle (b : Blk) (ports : Bool) (v : Nat) : Blk :=
  if b.lc == .armed || b.ticking then
    (if ports then { b with pwr := { b.pwr with nextPorts := some v } } else { b with pwr := { b.pwr with nextGroups := some v } })
  else if ports then b.applyIdle (some v) none 2 6 else b.applyIdle none (some v) 2 6

end Sys2Proof.Machine
end

