-- ==== Sys2Proof/Machine/Boot.lean ====
section
/-! DEFINITION. Resets (01_boundary.md R14, 15_states_power.md R356), the boot steps and the start of the service firmware
(11_sequencer.md R276 to R284). -/

namespace Sys2Proof.Machine

/-! ### Firmware images (R276) -/

/-- A field of the firmware header at byte `base` of program RAM. -/
def Store.fw (st : Store) (base a n : Nat) : Nat := leVal (Mem.read st.prog (base + a) n)

/-- Magic, ranges, levels, reserved bytes and CRC of an image; its kind and its entry offset are judged apart. -/
def fwFormed (st : Store) (base : Nat) : Bool :=
  let n := st.fw base 20 4
  let zero (a k : Nat) : Bool := st.fw base a k == 0
  st.fw base 0 4 == 0x46574C44 && n % 32 == 0 && decide (64 ≤ n) && decide (n ≤ 65536)
  && decide (st.fw base 14 2 ≤ st.fw base 16 2) && zero 5 3 && zero 18 2 && zero 48 16
  && crc32 (putBytes (Mem.read st.prog base n) 28 [0, 0, 0, 0]) == st.fw base 28 4
  && st.fw base 24 4 % 8 == 0 && decide (64 ≤ st.fw base 24 4)

/-- `FW_ENTRY` lies in its image. -/
def fwEntryIn (st : Store) (base : Nat) : Bool := decide (st.fw base 24 4 < st.fw base 20 4)

/-- Steps 4 and 5: the failure code (R278). -/
def fwFail (st : Store) : Option Nat :=
  if !fwFormed st 0 || !fwEntryIn st 0 then some 0x81
  else if !fwFormed st 65536 then some 0x82
  else if st.fw 0 4 1 ≠ 1 || st.fw 65536 4 1 ≠ 2 then some 0x83
  else if !fwEntryIn st 65536 then some 0x84
  else if st.fw 0 14 2 ≤ 0x0100 && 0x0100 ≤ st.fw 0 16 2 then none else some 0x85

/-- The pair is in the tested-pair table (R283). -/
def pairTested (svc rt : Nat) : Bool :=
  Config.testedPairs.any (fun p => p.1 == svc && p.2.1 == rt && p.2.2.1 == 0x11)

/-- Set or clear a bit of `ID_FLAGS`. -/
def Blk.idFlag (b : Blk) (i : Nat) (v : Bool) : Blk := b.setReg K.ID_FLAGS (setBit (b.reg K.ID_FLAGS) i v)

/-- Boot steps 4 to 7; where the zero region shows program RAM already, after `PROG_CTRL` = 2, the jump of step 7 reaches the service firmware
at once (R277; log entry 71). -/
def bootChecks (st : Store) (b : Blk) : Blk :=
  match fwFail st with
  | some c =>
    let b1 := (b.setReg K.BOOT_STATUS c).event 0x0804 1 c
    { b1 with pins := { b1.pins with bootPhase := 1, bootStep := 3 } }
  | none =>
    let ok := pairTested (st.fw 0 8 4) (st.fw 65536 8 4)
    let b1 := ((b.setReg K.BOOT_STATUS (if b.pins.remapDone then 2 else 1)).idFlag 0 (!ok)).setReg K.NEG_STATUS (if ok then 0 else 1)
    let b2 := if ok then b1 else b1.event 0x0801 0 255
    { b2 with pins := { b2.pins with bootPhase := 2, bootStep := 7 } }.writeMap 1

/-- Boot step 1 fails: Doluo stays in Boot and serves nothing. -/
def romFails (s : State) : State :=
  s.upd (fun _ b =>
    let b1 := (b.setReg K.BOOT_STATUS 0x86).eventWith 0x0806 3 255 0
    { b1 with pins := { b1.pins with romFailed := true, bootPhase := 0, bootStep := 1 } })

/-- Boot step 2: data RAM and the spare banks are cleared, the bridge starts with the boot dictionary, the first heartbeat is due. -/
def bootStep2 (s : State) : State :=
  { s with
    mem := { (if s.blk.railFull then clearSpares s.blk s.mem else s.mem) with dram := [] },
    blk :=
      { s.blk with
        pins := { s.blk.pins with romFailed := false, seqHeld := false, bootStep := 2, bridgeOn := true },
        pwr := { s.blk.pwr with spareDue := s.blk.pwr.spareDue || !s.blk.railFull },
        ring := { s.blk.ring with beatDue := s.blk.rw K.HEARTBEAT_TICKS != 0, hbCount := 0, hbWall := 0 } } }

/-- Boot waits at step 3 for `PROG_CTRL` = 1. -/
def Blk.bootWait (b : Blk) : Blk :=
  { b.setReg K.BOOT_STATUS 0 with pins := { (b.setReg K.BOOT_STATUS 0).pins with bootPhase := 1, bootStep := 3 } }

/-- The boot ROM runs from step 1; `warm`: step 3 goes on to step 4. -/
def bootFrom (romOk warm : Bool) (s : State) : State :=
  if !romOk then romFails s
  else if warm then (bootStep2 s).upd bootChecks
  else (bootStep2 s).upd (fun _ b => b.bootWait)

/-! ### Resets -/

/-- A reset shorter than 16 cycles may be a full reset or none (R14): a free choice. -/
def resetActs (cycles : Nat) (b : Blk) : Bool × Blk :=
  if 16 ≤ cycles then (true, b) else (b.freeValue % 2 == 1, b.takeFree)

/-- Everything returns to its cold value; pins keep the level that others drive on them. -/
def coldState (s : State) (coldLow : Bool) : State :=
  let b := s.blk
  { s with
    mem := {},
    blk :=
      { fresh := b.fresh, tick := { holdIn := b.tick.holdIn }, pwr := { ack := b.pwr.ack },
        pins := { coldLow := coldLow, warmLow := b.pins.warmLow, ringLow := b.pins.ringLow }, wrapper := { b.wrapper with wso := false } } }

/-- `COLD_RESET`. -/
def execColdReset (cycles : Nat) (s : State) : Host.Outcome State Fault Refusal :=
  let r := resetActs cycles s.blk
  .next (if r.1 then coldState { s with blk := r.2 } true else { s with blk := r.2 })

/-- `COLD_RESET_RELEASE`: with `WARM_RST_N` low, the boot waits for its release. -/
def execColdResetRelease (romOk : Bool) (s : State) : Host.Outcome State Fault Refusal :=
  .next (if !s.blk.pins.coldLow then s
    else
      let s1 := s.upd (fun _ b => { b with lc := .boot, pins := { b.pins with coldLow := false } })
      if s1.blk.pins.warmLow then s1 else bootFrom romOk false s1)

/-- `CONTROL_RAIL_LOSS` (R352). -/
def execControlRailLoss (s : State) : Host.Outcome State Fault Refusal := .next (coldState s s.blk.pins.coldLow)

/-- The built-in test is cut short. -/
def Blk.endBist (b : Blk) : Blk :=
  if b.pins.bist = 0 then b
  else ({ b with pins := { b.pins with bist := 0 } }.setReg K.BIST_STATUS 3).cmdDone 8 false

/-- Boot is entered from a state that has run: every operation in flight ends, `WRITERS` returns to 0 (R83), a save or
restore ends with status 7, a validation leaves `IMAGE_STATE` none (R264), retired banks are taken. -/
def Blk.toBoot (b : Blk) : Blk :=
  let b1 := ((b.stopAll.endSR 7).endBist)
  let b2 := if b1.reg K.IMAGE_STATE = 1 then b1.setReg K.IMAGE_STATE 0 else b1
  let b3 : Blk :=
    { b2.setSync 2 false with
      lc := .boot, sems := [], tiles := b2.tiles.map (fun x => (x.1, { x.2 with writers := 0 })),
      sched := { b2.sched with on := false },
      pins := { b2.pins with stopPend := 0, validating := false, invalidate := false, drainN := 0, drainForced := false,
                             schedRun := false, fwStarted := false } }
  b3.takeBanks

/-- A warm reset of an Anise slot (09_numerics.md R226): `HIST` and the reserved bytes take their reset values and every other field is
kept; a reset in the cycle of an update leaves `COMMIT` clear (R237). -/
def aniseWarm (cut : Bool) (v : List Byte) : List Byte :=
  let v1 := putBytes (putBytes v 0 (List.replicate 16 0x80)) 28 [0, 0, 0, 0]
  if cut then putBytes v1 20 [byteAt v1 20 &&& 0xFE] else v1

/-- A warm reset of Anise. -/
def Blk.warmAnise (b : Blk) : Blk :=
  b.anise.foldl (fun b c => b.setAnise c.1 (aniseWarm (b.aniseNow.any (fun n => n.slot == c.1)) c.2)) b

/-- `WARM_RESET`. -/
def warmReset (m : Store × Blk) : Store × Blk :=
  let b0 := { m.2 with pins := { m.2.pins with warmLow := true } }
  if b0.lc == .off then (m.1, b0)
  else
    let b1 := b0.warmAnise.toBoot
    let b2 := { b1 with
      pins := { b1.pins with remap := false, remapDone := false, bootStep := 0, bootPhase := 0, seqHeld := true },
      mx := { b1.mx with remapWait := false }, wrapper := { b1.wrapper with wso := false } }
    resetMaster 4 (resetMaster 3 (resetMaster 1 (resetMaster 0 (m.1, b2))))

def execWarmReset (cycles : Nat) (s : State) : Host.Outcome State Fault Refusal :=
  let r := resetActs cycles s.blk
  .next (if r.1 then
    let m := warmReset (s.mem, r.2)
    s.ordered ({ s with mem := m.1, blk := m.2 } : State).mxServe else { s with blk := r.2 })

/-- `WARM_RESET_RELEASE`. -/
def execWarmResetRelease (romOk : Bool) (s : State) : Host.Outcome State Fault Refusal :=
  .next (if !s.blk.pins.warmLow then s
    else
      let s1 := s.upd (fun _ b => { b with pins := { b.pins with warmLow := false } })
      if s1.blk.lc == .off || s1.blk.pins.coldLow then s1 else bootFrom romOk true s1)

/-- `RING_RESET`: the bridge, its queues, what they wait for, and master M2. -/
def ringReset (m : Store × Blk) : Store × Blk :=
  let b := m.2
  let b1 := { b with
    pins := { b.pins with ringLow := true },
    ring := { b.ring with seg := none, emcy := [], answers := [], forward := [], queue := [], now := false },
    mx := { b.mx with waits := b.mx.waits.filter (fun w => !w.ring) } }
  if b1.lc == .off then (m.1, b1) else resetMaster 2 (m.1, b1)

def execRingReset (cycles : Nat) (s : State) : Host.Outcome State Fault Refusal :=
  let r := resetActs cycles s.blk
  .next (if r.1 then
    let m := ringReset (s.mem, r.2)
    s.ordered ({ s with mem := m.1, blk := m.2 } : State).mxServe else { s with blk := r.2 })

/-- `RING_RESET_RELEASE`. -/
def execRingResetRelease (s : State) : Host.Outcome State Fault Refusal :=
  .next (s.upd (fun _ b => { b with pins := { b.pins with ringLow := false } }))

/-- `WRAPPER_RESET` (01_boundary.md R22): the wrapper and master M5. -/
def execWrapperReset (s : State) : Host.Outcome State Fault Refusal :=
  .next (if s.blk.lc == .off then s
    else
      let m := resetMaster 5 (s.mem, s.blk)
      ({ s with mem := m.1, blk := { m.2 with mx := { m.2.mx with wrapperAbort := false } } } : State).mxServe)

/-! ### The service firmware starts (R280, R281) -/

/-- Descriptors of the image in the region; one of a list that programs share counts once. -/
def Store.descCount (st : Store) : Nat :=
  let lists := (List.range st.progs).map (fun p => (st.progOff p, st.progLen p))
  ((List.range 4096).filter (fun i => lists.any (fun l => decide (l.1 ≤ 32 * i) && decide (32 * i < l.1 + 32 * l.2)))).length

/-- The replay index of the image in the region (R271): one 4-byte entry for each of its descriptors, in data RAM. -/
def Store.buildIndex (st : Store) : Store :=
  let n := st.descCount
  let entries := (List.range n).flatMap (fun i => leBytes 4 (Config.replayEntry (st.imgVal 28 4) i).toNat)
  { st with dram := Mem.write st.dram Config.replayIndexAt entries }

/-- Start the runtime, or not, as the interface levels match. -/
def Blk.negotiate (st : Store) (b : Blk) : Blk :=
  let svc := st.fw 0 12 2
  let rt := st.fw 65536 12 2
  let lo := max 0x0100 (max (st.fw 0 14 2) (st.fw 65536 14 2))
  let hi := min 0x0100 (min (st.fw 0 16 2) (st.fw 65536 16 2))
  if svc / 256 = rt / 256 && decide (rt % 256 ≤ svc % 256) then
    let none' := decide (hi < lo)
    let b1 := ((b.idFlag 2 false).idFlag 3 false).setReg K.BOOT_STATUS 3
    let b2 := (b1.setReg K.PLAT_MIN (if none' then 0 else lo)).setReg K.PLAT_MAX (if none' then 0 else hi)
    let b3 := if none' then b2.setReg K.NEG_STATUS 3 else b2
    { b3 with pins := { b3.pins with schedRun := true } }
  else
    let b1 := ((b.idFlag 2 true).idFlag 3 true).setReg K.BOOT_STATUS 0x87
    (((b1.setReg K.PLAT_MIN 0).setReg K.PLAT_MAX 0).setReg K.NEG_STATUS 2).event 0x0804 1 0x87

/-- `SERVICE_FIRMWARE_START`: its first fetch from the zero region has waited for the switch of R275, with which the accesses that wait for
it start. -/
def serviceStart (s : State) : State :=
  if s.blk.lc != .boot || s.blk.pins.bootPhase ≠ 2 || s.blk.pins.warmLow || s.blk.romOpen then s
  else
    let s1 := (s.upd (fun _ b => b.switchMap)).mxServe
    let b1 := (s1.blk.setReg K.SVC_VERSION (s1.mem.fw 0 8 4)).setReg K.RT_VERSION (s1.mem.fw 65536 8 4)
    let b2 := b1.negotiate s1.mem
    let m := placeRecords (s1.mem, { b2 with lc := .configured, pins := { b2.pins with bootPhase := 0, fwStarted := true } }.ackTaken)
    { s1 with mem := if b2.reg K.IMAGE_STATE = 2 then m.1.buildIndex else m.1, blk := m.2 }

def execServiceFirmwareStart (s : State) : Host.Outcome State Fault Refusal := .next (s.ordered (serviceStart s))

/-- `PROG_CTRL` = 1 accepted (R277). -/
def progStart (st : Store) (b : Blk) : Blk := bootChecks st (b.setReg K.BOOT_STATUS 1)

/-- `PROG_CTRL` = 2 accepted: back to Boot, to wait at step 3. -/
def Blk.progReturn (b : Blk) : Blk := b.toBoot.bootWait

end Sys2Proof.Machine
end

