-- ==== Sys2Proof/Machine/Commands.lean ====
section
/-! DEFINITION. What the dictionary commands and the entries with an effect of their own do once a request is accepted
(14_dictionary.md R341, R345 to R351; 09_numerics.md R230 to R232; 10_descriptors.md R256 to R264), the conditions under which
they are refused, and the ends of their work. -/

namespace Sys2Proof.Machine

/-! ### `ARM` (R348, 02_tick.md R34) -/

/-- The conditions of R34, in their order: the number of the first that fails. -/
def tickParamFail (st : Store) (b : Blk) : Option Nat :=
  if b.reg K.TICK_LEN < 8192 + b.reg K.GUARD + b.reg K.RECOMP_RESERVE + b.reg K.FAULT_SLACK then some 1
  else if b.reg K.GUARD < b.reg K.SYNC_WINDOW then some 2
  else if b.reg K.TICK_LEN ≠ st.imgVal 12 4 || b.reg K.RECOMP_RESERVE ≠ st.imgVal 16 4 then some 3
  else none

/-- The runtime is not started, or the platform range is empty: no image is valid for `ARM`, one kept from before among them
(11_sequencer.md R281, R284; log entry 69). -/
def Blk.noRuntime (b : Blk) : Bool := !b.pins.schedRun || b.reg K.PLAT_MAX == 0

/-- Why `ARM` is refused by its conditions: the event's code, class and unit. -/
def armCondition (st : Store) (b : Blk) : Option (Nat × Nat × Nat) :=
  if b.reg K.IMAGE_STATE ≠ 2 || b.noRuntime then some (0x0802, 0, 4)
  else match tickParamFail st b with
  | some n => some (0x0802, 0, n)
  | none =>
    if !b.mx.uncommitted.isEmpty then some (0x0802, 0, 5)
    else if b.reg K.STRICT_PAIRS = 1 && bit (b.reg K.ID_FLAGS) 0 then some (0x0803, 1, 255)
    else if b.reg K.PWR_BLOCK ≠ 0 then some (0x0802, 0, 5)
    else none

/-- Why `ARM` is refused, for its event: state, running test, conditions, in the order of R348. -/
def armReason (st : Store) (b : Blk) : Option (Nat × Nat × Nat) :=
  if b.lc ≠ .configured || b.pins.bist ≠ 0 then some (0x0802, 0, 5) else armCondition st b

/-- The events of a refused `ARM`; an uncommitted record that the refusal reports enters its own (R309). -/
def Blk.armRefused (st : Store) (b : Blk) : Blk :=
  match armReason st b with
  | none => b
  | some (c, cl, u) =>
    let b1 := b.event c cl u
    let found := b.lc == .configured && b.pins.bist == 0 && b.reg K.IMAGE_STATE == 2 && !b.noRuntime && (tickParamFail st b).isNone
      && !b.mx.uncommitted.isEmpty
    if found then b1.event 0x0903 1 255 else b1

/-- A status word is brought back to a consistent state (03_tile_registers.md R83). -/
def Blk.settleTile (b : Blk) (s : Nat) : Blk :=
  let t := b.tile s
  if t.state = .loading || t.state = .overflowed then (b.setTile 0 s { t with state := .damaged, pinned := false }).slotChanged s
  else { b with tiles := Tab.set (fun _ => ({} : Tile)) b.tiles s { t with
    pinned := false, abandoned := t.abandoned || t.state == .part } }

/-- Anise slots whose `COMMIT` bit is 0 become cold (12_service_matrix.md R309). -/
def Blk.coldUncommitted (b : Blk) : Blk :=
  (b.anise.filter (fun c => !(byteAt c.2 20).getLsbD 0)).foldl (fun b c =>
    let b1 := b.makeCold c.1
    { b1 with mx := { b1.mx with fills := b1.mx.fills.filter (fun f => f.1 != c.1) } }) b

/-- `ARM` accepted: R83, R309, every unit Active (R360), the RW-CFG values in force (R333), then Armed. -/
def doArm (m : Store × Blk) : Store × Blk :=
  let b1 := (List.range 128).foldl (fun b s => b.settleTile s) m.2
  let m2 := allActive (m.1, { b1 with force := b1.regs }.coldUncommitted)
  let b2 := m2.2
  (m2.1, { b2 with lc := .armed, force := b2.regs, epOff := b2.reg K.EP_DISABLE, sched := { on := true } })

/-! ### `RUN`, `STOP`, `CANCEL_EPOCH` -/

/-- `RUN` accepted (02_tick.md R35); one that waits already stays. The count of consecutive misses starts anew, and the locked bit of
`SYNC_STATE` stays as it is (DESIGN CHOICE, log entry 74). -/
def doRun (b : Blk) : Blk :=
  if b.tick.runAt.isSome then b
  else
    let b1 := { b with tick := { b.tick with runAt := some b.tick.wall, startDriven := false, missRun := 0 } }
    (b1.setReg K.SYNC_OFFSET 0).setSync 2 (b.cfg K.SYNC_MODE == 1)

/-- The last cycle of a tick runs now (R351). -/
def Blk.lastCycle (b : Blk) : Bool :=
  b.ticking && !b.tick.frozen && (b.tick.ended || decide (b.tickUnheld - b.tick.cut ≤ b.tick.unheld + 1))

/-- `STOP` accepted. -/
def doStop (v : Nat) (b : Blk) : Blk :=
  if b.lc = .armed then b.toConfigured.setSync 2 false
  else { b with pins := { b.pins with stopPend := v + if b.lastCycle then 2 else 0 } }

/-- `CANCEL_EPOCH` accepted. -/
def doCancel (v : Nat) (b : Blk) : Blk := b.cancelSlots (v % 512) (v / 65536 % 256)

/-! ### `SAVE` and `RESTORE` (15_states_power.md R366 to R368) -/

/-- The parameters rule out a save or restore. -/
def srRefused (b : Blk) : Bool :=
  (b.reg K.SR_CTX == 1 && b.half) || decide (2 ^ 57 < b.reg K.SR_BASE + b.reg K.SR_LIMIT)

/-- `SAVE` or `RESTORE` accepted: the parameters are latched (R349). -/
def doSR (isSave : Bool) (m : Store × Blk) : Store × Blk :=
  let b := m.2
  let sr : SaveEngine :=
    { phase := 1, late := b.lastCycle, cmd := true, isSave := isSave, ctx := b.reg K.SR_CTX, base := b.reg K.SR_BASE,
      limit := b.reg K.SR_LIMIT, anise := b.reg K.SR_WITH_ANISE == 1 }
  let b1 := { b with sr := sr }
  if b.ticking then (m.1, b1.setReg K.SR_STATUS 1)
  else if isSave then (m.1, b1.srStart)
  else scrubCtx b1.sr.ctx (m.1, b1.srStart)

/-- The rows of a save that are still to be read (R366, step 3); through a fenced port, or one whose units are not Active, none can be. -/
def readRest (st : Store) (b : Blk) : Blk :=
  match b.sr.op.bind b.op? with
  | some o =>
    if !b.sr.todo.isEmpty && b.fenced o.d.port then b.srEnd 5
    else b.sr.todo.foldl (fun b x =>
      if b.sr.phase ≠ 2 then b
      else
        let g := b.groupOf x.1 x.2
        if b.active o.d.port && b.active (8 + g) then saveRead st b o {} else (b.openAccessFault o o.d.port g x.1).srEnd 5) b
  | none => b

/-- A save ends: `SR_BYTES`, `SR_TILES`, the image in memory; not while M3 waits for its access at the matrix. -/
def saveEnds (st : Store) (b : Blk) : Blk :=
  let b1 := (readRest st b.saveTables).saveClosed
  if b1.sr.phase ≠ 2 || b1.sr.image.isEmpty then b1 else ((b1.setReg K.SR_BYTES b1.sr.image.length).setReg K.SR_TILES b1.sr.heads.length).srEnd 3

/-- A restore ends: the image is what its loads have brought so far and `rest`, of which what can be written is written now; it goes on while
M3 waits for its access at the matrix. -/
def restoreEnds (rest : List Byte) (fault : Bool) (s : State) : State :=
  let s1 := (s.blk.writes.filter (fun w => s.blk.sr.op == some w.op)).foldl (fun s w => s.writeDone w.wid) s
  let b1 := { s1.blk with sr := { s1.blk.sr with image := s1.blk.sr.image ++ rest } }
  let m := restoreRun 4300 (s1.mem, b1)
  { s1 with mem := m.1, blk := if !fault && m.2.mx.waits.any (fun w => w.engine) then m.2 else m.2.restoreEnd fault }

/-- `SAVE_RESTORE_DONE`: what the engine has still to move is moved at once (log entry 25). -/
def saveRestoreDone (outcome : SrEnd) (rest : List Byte) (s : State) : State :=
  let fault := match outcome with | .moved => false | _ => true
  if s.blk.sr.phase ≠ 2 then s
  else if s.blk.sr.isSave then s.upd (fun st b => (if fault then b.srEnd 5 else saveEnds st b).serve st)
  else (restoreEnds rest fault s).upd (fun st b => b.serve st)

def execSaveRestoreDone (outcome : SrEnd) (rest : List Byte) (s : State) : Host.Outcome State Fault Refusal :=
  .next (s.ordered (saveRestoreDone outcome rest s))

/-- `TSAVE`: the engine takes it once it heads its queue and the engine is free. -/
def execTsave (d : Desc) (s : State) : Host.Outcome State Fault Refusal :=
  .next (issued { d with opc := 0x60 } (fun _ b i =>
    if 8 ≤ (b.requester d.port d.req).queue.length then (b.queueFull d).suppress i else b.startOp { d with opc := 0x60 } i) s)

/-- `TREST`. -/
def execTrest (d : Desc) (s : State) : Host.Outcome State Fault Refusal :=
  .next (issued { d with opc := 0x61 } (fun _ b i =>
    if 8 ≤ (b.requester d.port d.req).queue.length then (b.queueFull d).suppress i else b.startOp { d with opc := 0x61 } i) s)

/-! ### `LOAD_IMAGE` (10_descriptors.md R256 to R264) -/

/-- `LOAD_IMAGE` accepted. -/
def doLoad (b : Blk) : Blk := { b with pins := { b.pins with validating := true, invalidate := false } }.setReg K.IMAGE_STATE 1

/-- The report of an accepted image. -/
def acceptReport : List Byte := Fail.bytes { result := 0, code := 0, nfail := 0 }

/-- `IMAGE_VALIDATION_DONE`. -/
def validationDone (st : Store) (b : Blk) : Blk :=
  if b.reg K.IMAGE_STATE ≠ 1 then b
  else
    let b1 := { b with pins := { b.pins with validating := false, invalidate := false } }.count K.LOAD_COUNT
    if b.pins.invalidate then b1.setReg K.IMAGE_STATE 4
    else match validateImage st b b.imgLo b.imgHi with
    | some f => ((b1.setRec K.LOAD_REPORT f.bytes).count K.LOAD_REJECTS).setReg K.IMAGE_STATE 3
    | none =>
      let b2 := (b1.setRec K.LOAD_REPORT acceptReport).setReg K.IMAGE_CRC (st.imgVal 28 4)
      ((b2.setRec K.IMAGE_BUILD (st.img 48 16)).setReg K.NEG_LEVEL ((negLevel st b).getD 0)).setReg K.IMAGE_STATE 2

/-- `IMAGE_VALIDATION_DONE`: with an accepted image the replay index stands in data RAM (11_sequencer.md R271). -/
def execImageValidationDone (s : State) : Host.Outcome State Fault Refusal :=
  let t := s.cyc validationDone
  .next (if s.blk.reg K.IMAGE_STATE = 1 ∧ t.blk.reg K.IMAGE_STATE = 2 then { t with mem := t.mem.buildIndex } else t)

/-! ### `BIST` (14_dictionary.md R348; 16_faults.md R376, R379) -/

/-- `BIST` accepted. -/
def doBist (v : Nat) (b : Blk) : Blk := { b with pins := { b.pins with bist := v } }.setReg K.BIST_STATUS 1

/-- A failing bank is retired as by `RETIRE_BANK`, or leaves the pool of spares (R376). -/
def Blk.bistRetire (b : Blk) (p : Nat) : Blk :=
  if b.retired p then b
  else if !b.retireRefused p then b.retire p
  else if p < 32 then b
  else ((b.setReg K.BANKS_RETIRED (Nat.lor (b.reg K.BANKS_RETIRED) (2 ^ p))).setReg K.SPARES_FREE (b.reg K.SPARES_FREE - 1)).event
    0x0204 1 p

/-- What the tested arrays hold afterwards: zeros with valid check bits. -/
def bistClear (v : Nat) (st : Store) : Store :=
  let st1 := if bit v 0 then { st with data := [], marks := st.marks.filter (fun c => decide (2097152 ≤ c.1)) } else st
  if bit v 1 then { st1 with side := [], marks := st1.marks.filter (fun c => decide (c.1 < 2097152)) } else st1

/-- Every Anise slot becomes cold and every Clove counter zero. -/
def Blk.coldAll (b : Blk) : Blk :=
  let v := aniseReset (b.cfg K.ANISE_MARGIN_INIT) (b.reg K.WARM_USES)
  let b1 := { b with
    anise := Tab.write aniseDefault [] 0 (List.replicate 4096 v), clove := [], ckpt := 0, aniseNow := [],
    mx := { b.mx with fills := b.mx.fills.filter (fun f => decide (4096 ≤ f.1)) } }
  (b1.idFlag 1 true).noteSet 700

/-- `BIST_DONE`: only units of the chosen tests can fail; banks failed as the two array tests found them. -/
def bistDone (banks : List Nat) (mergeBuf anise trace : Bool) (b : Blk) : Blk :=
  let v := b.pins.bist
  let arrays := bit v 0 || bit v 1
  let bad := if arrays then (List.range 34).filter (fun p => banks.contains p) else []
  let mb := mergeBuf && bit v 2
  let an := anise && bit v 3
  let tr := trace && bit v 4
  let fails := (bad.map (fun p => 2 ^ p)).sum + (if mb then 2 ^ 40 else 0) + (if an then 2 ^ 41 else 0) + (if tr then 2 ^ 42 else 0)
  let b1 := { b with pins := { b.pins with bist := 0 }, trace := if bit v 4 then [] else b.trace }
  let b2 := if arrays then b1.clearTiles else b1
  let b3 := if bit v 3 then b2.coldAll else b2
  let b4 := (b3.setRec K.BIST_FAILS (leBytes 8 fails)).setReg K.BIST_STATUS (if fails = 0 then 2 else 3)
  let b5 := if b4.cfg K.BIST_RETIRE = 1 then bad.foldl (fun b p => b.bistRetire p) b4 else b4
  let b6 := if mb then { b5 with flt := { b5.flt with mergeFailing := true } } else b5
  b6.cmdDone 8 (fails == 0)

def execBistDone (banks : List Nat) (mergeBuf anise trace : Bool) (s : State) : Host.Outcome State Fault Refusal :=
  .next (if s.blk.pins.bist = 0 then s
    else s.ordered { s with mem := bistClear s.blk.pins.bist s.mem, blk := bistDone banks mergeBuf anise trace s.blk })

/-- A unit is Idle. -/
def Blk.someIdle (b : Blk) : Bool := b.pwr.portsIdle != 0 || b.pwr.groupsIdle != 0

/-! ### `TILE_CONFIG` (03_tile_registers.md R80) -/

/-- Reserved bits of the value, or a slot above 127. -/
def tileConfigRange (v : List Byte) : Bool :=
  decide (fieldAt v 0 2 < 128) && decide (fieldAt v 8 2 < 4096) && decide (fieldAt v 10 1 < 2) && fieldAt v 11 1 == 0

/-- The cause of its shape fault. -/
def tileConfigFault (v : List Byte) : Option Nat :=
  let w := fieldAt v 4 4
  if !shapeOk w then some 4 else if !pairOk (shFmt w) (shMode w) then some 9 else none

/-- Its condition fails: a slot that half mode does not have, or a shape fault, which is recorded. -/
def tileConfigRefused (v : List Byte) (b : Blk) : Bool :=
  (b.half && decide (64 ≤ fieldAt v 0 2)) || (tileConfigFault v).isSome

/-- The shape fault of a `TILE_CONFIG`, whose `FSHAPE` is the shape word of the command (DESIGN CHOICE, log entry 75). -/
def tileConfigNote (v : List Byte) (b : Blk) : Blk :=
  if b.half && 64 ≤ fieldAt v 0 2 then b
  else match tileConfigFault v with
  | some c => b.shapeFault 0x01 (fieldAt v 0 2) (fieldAt v 4 4) c 0
  | none => b

/-- `TILE_CONFIG` accepted: a pending scrub of the slot runs first. It needs all bank groups Active (R361): until they are, both wait, the
latest `TILE_CONFIG` of the slot in the place of an earlier one. -/
def doTileConfig (v : List Byte) (m : Store × Blk) : Store × Blk :=
  let s := fieldAt v 0 2
  let d : Desc := { opc := 0x01, slot := s, shape := fieldAt v 4 4, scaleSlot := fieldAt v 8 2, epoch := fieldAt v 2 2, opf := bit (fieldAt v 10 1) 0 }
  if (m.2.tile s).scrubPend && !m.2.groupsActive then (m.1, { m.2 with heldCfg := m.2.heldCfg.filter (fun c => c.slot != s) ++ [d] })
  else
    let m1 := scrubSlotNow s m
    (m1.1, m1.2.configureBy d)

/-! ### Clears -/

/-- `FAULT_ACK` (01_boundary.md R19): a bit whose event was entered in this cycle stays. -/
def doFaultAck (v : Nat) (b : Blk) : Blk :=
  let clears (i : Nat) : Bool := bit v i && !b.setNow i
  let mask := ((List.range 3).map (fun i => if clears i then 2 ^ i else 0)).sum
  { b with flt := { b.flt with out := b.flt.out - Nat.land b.flt.out mask } }

/-- `DEAD_READ_CLEAR`; a read of this cycle sets its bit after the clear (R351). -/
def doDeadReadClear (v : Nat) (b : Blk) : Blk :=
  { b with tiles := b.tiles.map (fun x =>
      if (v = 255 ∨ x.1 = v) ∧ b.setNow (128 + x.1) = false then (x.1, { x.2 with deadRead := false }) else x) }

/-- `EH_COUNT` written 0 (R341): the events of this cycle are entered behind it, from position 1 on (R351). -/
def doEhClear (b : Blk) : Blk :=
  let k := b.flt.today.length
  let b1 := { b with recs := b.recs.filter (fun c => !(decide (K.EH_COUNT < c.1) && decide (c.1 ≤ K.EH_COUNT + 16))) }
  let b2 := (((List.range k).zip b.flt.today).drop (k - 16)).foldl (fun b x => b.setRec (K.EH_COUNT + (x.1 % 16 + 1)) x.2) b1
  (b2.setReg K.EH_COUNT (min k 16)).setReg K.EH_NEXT (k % 16 + 1)

/-- `HOG_FLAGS_CLEAR`; a cut-off of this cycle sets its flag after the clear (R351). -/
def doHogClear (v : Nat) (b : Blk) : Blk :=
  let fl := b.record K.HOG_FLAGS 12
  b.setRec K.HOG_FLAGS ((List.range 6).flatMap (fun p =>
    let kept := ((List.range 16).map (fun i => if b.setNow (256 + 16 * p + i) then 2 ^ i else 0)).sum
    leBytes 2 (if v = 255 ∨ p = v then Nat.land (fieldAt fl (2 * p) 2) kept else fieldAt fl (2 * p) 2)))

/-- `MX_LOCK_CLEAR` (12_service_matrix.md R312). -/
def doLockClear (v : Nat) (b : Blk) : Blk := b.clearLocks v

/-- `TRACE_CLEAR` (R346): the records of this cycle are written behind it, from offset 0 on, those among them that a full buffer had lost,
and where they stood stands again what was there before (16_faults.md R392). -/
def doTraceClear (b : Blk) : Blk :=
  let n := b.flt.trOld.length + b.flt.trDrop.length
  let now := (b.flt.trOld.reverse.map (fun x => Tab.get (fun _ => []) b.trace x.1)) ++ b.flt.trDrop
  let old := b.flt.trOld.foldl (fun t x => Tab.set (fun _ => []) t x.1 x.2) b.trace
  let new := ((List.range n).zip now).foldl (fun t x => Tab.set (fun _ => []) t x.1 x.2) old
  let b1 := { b with
    trace := new,
    flt := { b.flt with trOld := ((List.range n).map (fun p => (p, Tab.get (fun _ => []) old p))).reverse, trDrop := [] } }
  let b2 := (b1.setReg K.TRACE_NEXT (32 * n % 262144)).setReg K.TRACE_FILL (min (32 * n) 262144)
  b2.setReg K.TRACE_LOST (b.reg K.TRACE_LOST - b.flt.trDrop.length)

/-! ### Anise and Clove (09_numerics.md R230 to R232) -/

/-- A restore of slot `n` as one whole commit unit; the Bool says that it became cold. -/
def Blk.restoreSlot (b : Blk) (n : Nat) (v : List Byte) : Blk × Bool :=
  let r := b.restoreAnise n v
  ({ r.1 with mx := { r.1.mx with fills := r.1.mx.fills.filter (fun f => f.1 != n) } }, r.2)

/-- The uses of this cycle act on a slot after it has been cleared (14_dictionary.md R351); `now`: as they stood. -/
def Blk.useAgain (b : Blk) (now : List ScaleNow) (slot : Nat) : Blk :=
  match now.find? (fun n => n.slot == slot) with
  | some n => b.setScales { n with anise := b.aniseSlot slot, clove := b.cloveSlot slot }
  | none => b

/-- `ANISE_INIT`. -/
def doAniseInit (v : Nat) (b : Blk) : Blk :=
  if v = 65535 then b.aniseNow.foldl (fun c n => c.useAgain b.aniseNow n.slot) b.coldAll
  else
    let b1 := (b.makeCold v).setClove v (cloveDefault v)
    { b1 with mx := { b1.mx with fills := b1.mx.fills.filter (fun f => f.1 != v) } }.useAgain b.aniseNow v

/-- A checkpoint half has been written whole; once both halves have been restored without a cold slot, the cold-scale flag
clears (R232). -/
def Blk.ckptDone (b : Blk) (hi bad : Bool) : Blk :=
  if bad then { b with ckpt := 0 }
  else
    let c := Nat.lor b.ckpt (if hi then 2 else 1)
    if c = 3 then { b with ckpt := 0 }.idFlag 1 false else { b with ckpt := c }

/-- A checkpoint half as a whole value. -/
def doAniseCkpt (hi : Bool) (v : List Byte) (b : Blk) : Blk :=
  let r := (List.range 2048).foldl (fun (x : Blk × Bool) i =>
    let y := x.1.restoreSlot ((if hi then 2048 else 0) + i) (slice v (32 * i) 32)
    (y.1, x.2 || y.2)) (b, false)
  r.1.ckptDone hi r.2

/-- The Clove checkpoint as a whole value; the reserved bytes of a slot read as zero (00_scope.md R6). -/
def doCloveCkpt (v : List Byte) (b : Blk) : Blk :=
  { b with clove := Tab.write cloveDefault b.clove 0 ((List.range 4096).map (fun i => slice v (16 * i) 14 ++ [0, 0])) }

end Sys2Proof.Machine
end

