-- ==== Sys2Proof/Machine/Requests.lean ====
section
/-! DEFINITION. Dictionary requests (14_dictionary.md R331 to R333; 13_evien.md R317 to R322): the ten checks in their order, what
an accepted write does, the answers; and the commands of the table that are writes of one entry. -/

namespace Sys2Proof.Machine

/-! ### Answers (R317, R321) -/

/-- Requests are answered: the bridge is in service and the sequencer runs (15_states_power.md R355). -/
def Blk.ringUp (b : Blk) : Bool :=
  b.lc != .off && !b.pins.ringLow && !b.ring.fenced && !b.pins.seqHeld && !b.pins.romFailed && !b.pins.warmLow

/-! ### The queue of the bridge (13_evien.md R318) -/

/-- An access of master `k` to target `t` would wait: the target is locked or held, or an earlier access of the master waits. -/
def Blk.ringBlocked (b : Blk) (k t : Nat) : Bool :=
  (b.lockOf t).any (fun l => l.2.1 != k) || b.targetBusy t || !(b.mxOpen k).isEmpty

/-- The access of master `k` that request `c` makes waits at the matrix, and the request in the bridge. -/
def Blk.ringWait (b : Blk) (k t : Nat) (write : Bool) (c : Instr) : Blk :=
  let base := ((mxTargets.find? (fun x => x.1 == t)).getD (0, 0, 0)).2.1
  let w : MxWait :=
    { burst := { master := k, write := write, addr := base, size := 1, beats := 1 }, since := b.tick.wall, why := 2, no := b.mx.no,
      tick := b.tick.tick, ring := true }
  { b with mx := { b.mx with no := b.mx.no + 1, waits := b.mx.waits ++ [w] }, ring := { b.ring with queue := c :: b.ring.queue } }

/-- A ring request: behind requests that wait it joins their queue of 4, and a full queue refuses it; else it runs, or waits with the access
that it makes (`acc`: master, target, write). -/
def ringTake (c : Instr) (acc : Option (Nat × Nat × Bool)) (run : State → State) (s : State) : State :=
  let b := s.blk
  if !b.ringUp then s
  else if !b.ring.now && !b.ring.queue.isEmpty then
    if b.ring.queue.length < 4 then { s with blk := { b with ring := { b.ring with queue := b.ring.queue ++ [c] } } }
    else
      let (node, index, sub) := ringAddr c
      { s with blk := b.abortReply node index sub 0x00010004 }
  else
    let s1 := if b.ring.now then { s with blk := { b with ring := { b.ring with now := false } } } else s
    if acc.any (fun x => b.ringBlocked x.1 x.2.1) then
      let x := acc.getD (0, 0, false)
      { s1 with blk := s1.blk.ringWait x.1 x.2.1 x.2.2 c }
    else run s1

/-- The access of the service thread to the record of a scalar entry. -/
def recordAccess (k : Nat) (write : Bool) : Option (Nat × Nat × Bool) :=
  if (entryAt k).any hasRecord then some (1, 5, write) else none

/-! ### Checks 1 to 5 (R332) -/

/-- Objects that the boot dictionary serves (11_sequencer.md R278). -/
def bootServed (index : Nat) : Bool := [0x1000, 0x1018, 0x1F10, 0x1F50, 0x1F51, 0x1F52, 0x1003].contains index

/-- Checks 1 and 2. -/
def findEntry (b : Blk) (index sub : Nat) : Nat ⊕ Entry :=
  if !objects.any (fun o => o.1 == index) then .inl 0x00020001
  else if b.lc == .boot && !bootServed index then .inl 0x00040003
  else if 256 ≤ sub then .inl 0x00020002
  else match entryAt (256 * index + sub) with
  | some e => .inr e
  | none => .inl 0x00020002

/-- Check 4: a scalar, or a string of at most 8 bytes, moves expedited, everything else in segments. -/
def kindFits (st : Store) (b : Blk) (e : Entry) (seg : Bool) : Bool :=
  seg == (e.typ == .domain || (e.typ == .string && decide (8 < (entryBytes st b e).length)))

/-- Checks 1 to 4 and 9 of a read. -/
def readFail (st : Store) (b : Blk) (seg : Bool) (index sub : Nat) : Nat ⊕ Entry :=
  match findEntry b index sub with
  | .inl c => .inl c
  | .inr e =>
    if e.acc = .wo then .inl 0x00020004
    else if !kindFits st b e seg then .inl 0x00020006
    else if b.uncommitted e.key then .inl 0x00030006
    else .inr e

/-! ### Checks 6 to 8 and 10 -/

/-- A command entry (R348). -/
def isCommand (k : Nat) : Bool := decide (0x2F0001 ≤ k) && decide (k ≤ 0x2F000A)

/-- Check 6: the state does not allow the write. -/
def stateFail (b : Blk) (e : Entry) (v : Nat) : Option Nat :=
  let k := e.key
  let conf := b.lc == .configured
  let allow (ok : Bool) : Option Nat := if ok then none else some 0x00030003
  if e.acc = .cfg then (if conf then none else some 0x00030002)
  else if k = K.FW_SERVICE || k = K.FW_RUNTIME then (if b.lc = .boot then none else some 0x00030002)
  else if k = K.PROG_CTRL then allow ((b.lc == .boot && v != 2) || (conf && v != 1))
  else if k = K.LOAD_IMAGE || k = K.ARM || k = K.TILE_CONFIG || k = K.PWR_BLOCK then allow conf
  else if k = K.RUN then allow (b.lc == .armed)
  else if k = K.CANCEL_EPOCH then allow (conf || b.lc == .armed || b.ticking)
  else if k = K.SAVE || k = K.RESTORE then allow (conf || b.lc == .running || b.lc == .holding)
  else if k = K.BIST then allow (conf && b.reg K.PWR_BLOCK == 0)
  else if k = K.STOP then allow (b.lc == .armed || b.lc == .running || b.lc == .holding)
  else if k = K.RETIRE_BANK then allow (b.lc != .boot)
  else none

/-- Check 7: the entry is busy. -/
def busyFail (b : Blk) (e : Entry) (v : Nat) : Bool :=
  let k := e.key
  let bist := b.pins.bist != 0
  let valid := b.reg K.IMAGE_STATE == 1
  let sr := b.sr.phase != 0
  if k = K.LOAD_IMAGE then valid || bist
  else if k = K.IMAGE_LO || k = K.IMAGE_HI then valid
  else if k = K.ARM || k = K.RETIRE_BANK || k = K.BIST || k = K.TILE_CONFIG then bist
  else if k = K.SAVE || k = K.RESTORE then bist || sr
  else if k = K.STOP then b.pins.stopPend != 0
  else if k = K.PWR_BLOCK then bist || sr || b.pwr.waitAck.isSome
  else if k = K.PWR_IDLE_PORTS || k = K.PWR_IDLE_GROUPS then bist
  else if k = K.FW_SERVICE || k = K.FW_RUNTIME then b.pins.bootPhase == 2
  else if k = K.PROG_CTRL then v == 1 && b.pins.bootPhase == 2
  else false

/-- Checks 1 to 7 of a write of `size` bytes. -/
def writeFail (st : Store) (b : Blk) (seg : Bool) (index sub size v : Nat) : Nat ⊕ Entry :=
  match findEntry b index sub with
  | .inl c => .inl c
  | .inr e =>
    if e.acc = .const || e.acc = .ro then .inl 0x00020003
    else if !kindFits st b e seg then .inl 0x00020006
    else if size < e.lo || e.hi < size then .inl 0x00020005
    else match stateFail b e v with
    | some c => .inl c
    | none => if busyFail b e v then .inl 0x00030005 else .inr e

/-- Check 8 of a scalar: the value is in its range. -/
def valueFits (b : Blk) (e : Entry) (v : Nat) : Bool :=
  e.rng.ok v && (e.key != K.PWR_IDLE_GROUPS || !b.half || decide (v < 16))

/-- A write of an Idle entry that R343 refuses. -/
def idleRefused (st : Store) (b : Blk) (ports : Bool) (v : Nat) : Bool :=
  b.reg K.PWR_BLOCK != 0
  || ((b.lc == .armed || b.ticking) && (if ports then Nat.land v (st.imgVal 35 1) != 0 && b.reg K.IMAGE_STATE == 2 else v != 0))

/-- Check 10 of a scalar: the command's condition fails. -/
def conditionFails (st : Store) (b : Blk) (e : Entry) (v : Nat) : Bool :=
  let k := e.key
  if k = K.ARM then (armCondition st b).isSome
  else if k = K.SAVE || k = K.RESTORE then srRefused b
  else if k = K.RETIRE_BANK then b.retireRefused v && !b.setNow (600 + v)
  else if k = K.BIST then b.someIdle
  else if k = K.PWR_BLOCK then b.reg K.PWR_BLOCK == 3 && v == 2
  else if k = K.PWR_IDLE_PORTS then idleRefused st b true v
  else if k = K.PWR_IDLE_GROUPS then idleRefused st b false v
  else false

/-- Every check of a write of scalar value `v` in `size` bytes. -/
def scalarFail (st : Store) (b : Blk) (index sub size v : Nat) : Nat ⊕ Entry :=
  match writeFail st b false index sub size v with
  | .inl c => .inl c
  | .inr e =>
    if !valueFits b e v then .inl 0x00030001
    else if conditionFails st b e v then .inl 0x00030004
    else .inr e

/-! ### What an accepted write does -/

/-- A change of everything but the memories, as an operation on both. -/
def onBlk (f : Blk → Blk) (m : Store × Blk) : Store × Blk := (m.1, f m.2)

/-- The effect of a write of scalar value `v` to an entry that has no meaning of its own (R333): stored, and an image that it
concerns is invalidated (R263). -/
def plainWrite (e : Entry) (v : Nat) (m : Store × Blk) : Store × Blk :=
  let m1 := storeScalar e v m
  if checkedEntry e.key then onBlk Blk.invalidateImage m1 else m1

/-- The effect of an accepted write of a scalar entry. -/
def scalarEffect (e : Entry) (v : Nat) (m : Store × Blk) : Store × Blk :=
  let k := e.key
  if k = K.ARM then doArm m
  else if k = K.RUN then onBlk doRun m
  else if k = K.STOP then onBlk (doStop v) m
  else if k = K.CANCEL_EPOCH then onBlk (doCancel v) m
  else if k = K.SAVE then doSR true m
  else if k = K.RESTORE then doSR false m
  else if k = K.RETIRE_BANK then onBlk (fun b => if b.retired v then b else b.retire v) m
  else if k = K.BIST then onBlk (doBist v) m
  else if k = K.LOAD_IMAGE then onBlk doLoad m
  else if k = K.PROG_CTRL then (if v = 1 then (m.1, progStart m.1 m.2) else onBlk Blk.progReturn m)
  else if k = K.FAULT_ACK then onBlk (doFaultAck v) m
  else if k = K.SYNC_LOST_CLEAR then (if v = 1 then onBlk (fun b => if b.setNow 16 then b else b.setSync 1 false) m else m)
  else if k = K.DEAD_READ_CLEAR then onBlk (doDeadReadClear v) m
  else if k = K.EH_COUNT then onBlk doEhClear (storeScalar e v m)
  else if k = K.HOG_FLAGS_CLEAR then onBlk (doHogClear v) m
  else if k = K.MX_LOCK_CLEAR then onBlk (doLockClear v) m
  else if k = K.TRACE_CLEAR then onBlk doTraceClear m
  else if k = K.ANISE_COLD_CLEAR then (if v = 1 then onBlk (fun b => if b.setNow 700 then b else b.idFlag 1 false) m else m)
  else if k = K.ANISE_INIT then onBlk (doAniseInit v) m
  else if k = K.PWR_IDLE_PORTS then onBlk (fun b => b.writeIdle true v) (storeScalar e v m)
  else if k = K.PWR_IDLE_GROUPS then onBlk (fun b => b.writeIdle false v) (storeScalar e v m)
  else plainWrite e v m

/-- The whole effect; a block-wide power change also completes the `SV` writes in flight. -/
def acceptScalar (e : Entry) (v : Nat) (s : State) : State :=
  if e.key = K.PWR_BLOCK then
    let s1 := doPwrBlock v s
    let m := storeScalar e v (s1.mem, s1.blk)
    { s1 with mem := m.1, blk := m.2 }
  else
    let m := scalarEffect e v (s.mem, s.blk)
    { s with mem := m.1, blk := m.2 }

/-! ### Accepted and refused commands (R348, R350) -/

/-- `CMD_LAST` for a request to key `k`. -/
def Blk.noteCommand (b : Blk) (k result code : Nat) : Blk := if isCommand k then b.cmdLast (k % 256) result code else b

/-- A refused write: it changes nothing but the records of a refused command, its events, and the answer. -/
def refuseWrite (st : Store) (b : Blk) (node index sub code : Nat) : Blk :=
  let k := 256 * index + sub
  let b1 := b.noteCommand k 1 code
  let b2 := if k = K.ARM && [0x00030003, 0x00030004, 0x00030005].contains code then b1.armRefused st else b1
  b2.abortReply node index sub code

/-- A write of a scalar entry, with its answer. -/
def scalarWrite (node index sub size v : Nat) (s : State) : State :=
  s.ordered <| match scalarFail s.mem s.blk index sub size v with
  | .inl c => s.upd (fun st b => refuseWrite st b node index sub c)
  | .inr e =>
    let s1 := s.upd (fun _ b => b.noteCommand e.key 0 0)
    (((acceptScalar e v s1).upd (fun _ b => b.reply node 0x82 0 index sub [])).upd (fun st b => b.serve st)).mxServe

/-- A write of a scalar entry, as a ring request. -/
def requestWrite (node index sub size v : Nat) (s : State) : State :=
  ringTake (.expeditedWrite node index sub (leBytes size v)) (recordAccess (256 * index + sub) true) (scalarWrite node index sub size v) s

/-- A write of value `v` to the entry at key `k`, in as many bytes as it has; a value that does not fit is refused. -/
def commandWrite (node k v : Nat) (s : State) : State :=
  let n := match entryAt k with | some e => e.lo | none => 1
  requestWrite node (k / 256) (k % 256) (if v < 256 ^ n then n else 9) v s

/-! ### Segmented values (13_evien.md R319, R320) -/

/-- The memory that a DOMAIN entry writes: matrix target and first byte. -/
def domainBase (b : Blk) (k : Nat) : Option (Nat × Nat) :=
  if k = K.FW_SERVICE then some (1, 0)
  else if k = K.FW_RUNTIME then some (1, 65536)
  else if k = K.IMAGE_LO then some (1, 131072)
  else if k = K.IMAGE_HI then some (1, 196608)
  else if k = K.ANISE_SLOT then some (4, 32 * b.reg K.ANISE_SELECT)
  else if k = K.ANISE_CKPT_LO then some (4, 0)
  else if k = K.ANISE_CKPT_HI then some (4, 65536)
  else if k = K.CLOVE_CKPT then some (4, 131072)
  else none

/-- The target refuses the bridge's write now (12_service_matrix.md R299). -/
def Blk.domainRefused (b : Blk) (k t a n : Nat) : Bool :=
  (domainBase b k).isSome && b.writeRefused { master := 2, write := true, addr := 0, size := 1, beats := 1 } t a n

/-- Bytes for an image half have been written. -/
def Blk.noteImage (b : Blk) (k n : Nat) : Blk :=
  if k = K.IMAGE_LO then { b with imgLo := n }.invalidateImage
  else if k = K.IMAGE_HI then { b with imgHi := n }.invalidateImage
  else b

/-- Move bytes `pos` to `pos + bs.length` of an entry's value into its memory as bursts of M2. -/
def moveBytes (k t base pos : Nat) (bs : List Byte) (m : Store × Blk) : Store × Blk :=
  let u : Burst := { master := 2, write := true, addr := 0, size := 1, beats := 1 }
  let m1 := if t = 1 then ({ m.1 with prog := Mem.write m.1.prog (base + pos) bs }, m.2.noteImage k (pos + bs.length))
    else (targetBeats t (base + pos) (bs.map some)).foldl (fun m x => writeBeat 2 t x.1 x.2 m) m
  (m1.1, m1.2.lockEnd u t)

/-- The end of a whole value's effect. `data`: its bytes; those of memory are in place. -/
def finishDomain (k : Nat) (data : List Byte) (bad : Bool) (m : Store × Blk) : Store × Blk :=
  if k = K.TILE_CONFIG then doTileConfig data m
  else if k = K.ANISE_CKPT_LO then onBlk (fun b => b.ckptDone false bad) m
  else if k = K.ANISE_CKPT_HI then onBlk (fun b => b.ckptDone true bad) m
  else m

/-- The whole effect of a value that arrives at once. -/
def domainEffect (k t base : Nat) (data : List Byte) (m : Store × Blk) : Store × Blk :=
  if t = 1 then moveBytes k t base 0 data m
  else if k = K.ANISE_SLOT then onBlk (fun b => (b.restoreSlot (base / 32) data).1) m
  else if k = K.ANISE_CKPT_LO then onBlk (doAniseCkpt false data) m
  else if k = K.ANISE_CKPT_HI then onBlk (doAniseCkpt true data) m
  else if k = K.CLOVE_CKPT then onBlk (doCloveCkpt data) m
  else if k = K.TILE_CONFIG then doTileConfig data m
  else m

/-- Checks 8 and 10 of a segmented value. -/
def domainFail (b : Blk) (k : Nat) (data : List Byte) : Option Nat :=
  if k ≠ K.TILE_CONFIG then none
  else if !tileConfigRange data then some 0x00030001
  else if tileConfigRefused data b then some 0x00030004
  else none

/-- A refused segmented value; a shape fault is recorded. -/
def refuseDomain (st : Store) (b : Blk) (node index sub code : Nat) (data : List Byte) : Blk :=
  let k := 256 * index + sub
  let b1 := if k = K.TILE_CONFIG && code = 0x00030004 then tileConfigNote data b else b
  refuseWrite st b1 node index sub code

/-- `CTL` of the answers to the segments of a value of `n` bytes: `TOGGLE` alternates, and the last has `LAST`. -/
def segCtls (n : Nat) : List Nat :=
  let k := ceilDiv n 8
  (List.range k).map (fun i => (if i + 1 = k then 4 else 0) + if i % 2 = 1 then 8 else 0)

/-- The answers of a segmented write: to the initiate, and to each segment but the last where `all` is false (13_evien.md R316, R319). -/
def Blk.segReplies (b : Blk) (node index sub n : Nat) (all : Bool) : Blk :=
  let cs := 2 :: (if all then segCtls n else (segCtls n).dropLast)
  cs.foldl (fun b c => b.reply node 0x83 c index sub []) b

/-- The command that writes the whole value of a DOMAIN entry. -/
def domainInstr (node k : Nat) (data : List Byte) : Instr :=
  if k = K.TILE_CONFIG then .tileConfig node data
  else if k = K.ANISE_SLOT then .aniseSlot node data
  else if k = K.ANISE_CKPT_LO then .aniseCkpt node false data
  else if k = K.ANISE_CKPT_HI then .aniseCkpt node true data
  else if k = K.CLOVE_CKPT then .cloveCkpt node data
  else if k = K.FW_SERVICE then .fwImageWrite node false data
  else if k = K.FW_RUNTIME then .fwImageWrite node true data
  else .imageRegionWrite node (k == K.IMAGE_HI) data

/-- A segmented write of a whole value: initiate, every segment, and their answers. -/
def wholeWrite (node k : Nat) (data : List Byte) (s : State) : State :=
  let index := k / 256
  let sub := k % 256
  if s.blk.ring.seg.isSome then s.upd (fun _ b => b.abortReply node index sub 0x00010004)
  else match writeFail s.mem s.blk true index sub data.length 0 with
  | .inl c => s.upd (fun st b => refuseDomain st b node index sub c [])
  | .inr e =>
    match domainFail s.blk e.key data with
    | some c => s.upd (fun st b => refuseDomain st (b.segReplies node index sub data.length false) node index sub c data)
    | none =>
      let (t, base) := (domainBase s.blk e.key).getD (0, 0)
      let m := domainEffect e.key t base data (s.mem, s.blk.noteCommand e.key 0 0)
      s.ordered (({ s with mem := m.1, blk := m.2.segReplies node index sub data.length true } : State).upd
        (fun st b => b.serve st)).mxServe

/-- It is a ring request, which the bridge moves to its memory. -/
def domainWrite (node k : Nat) (data : List Byte) (s : State) : State :=
  ringTake (domainInstr node k data) ((domainBase s.blk k).map (fun x => (2, x.1, true))) (wholeWrite node k data) s

/-! ### The commands that are writes of one entry -/

def execProgCtrlStart (node : Nat) (s : State) : Host.Outcome State Fault Refusal := .next (commandWrite node K.PROG_CTRL 1 s)

def execProgCtrlReturn (node : Nat) (s : State) : Host.Outcome State Fault Refusal := .next (commandWrite node K.PROG_CTRL 2 s)

/-- `DICT_WRITE`: an entry without behaviour of its own is stored and used as its access code gives (R333). -/
def execDictWrite (node index sub value : Nat) (s : State) : Host.Outcome State Fault Refusal :=
  .next (commandWrite node (256 * index + sub % 256) value s)

def execLoadImage (node value : Nat) (s : State) : Host.Outcome State Fault Refusal := .next (commandWrite node K.LOAD_IMAGE value s)

def execArm (node value : Nat) (s : State) : Host.Outcome State Fault Refusal := .next (commandWrite node K.ARM value s)

def execRun (node value : Nat) (s : State) : Host.Outcome State Fault Refusal := .next (commandWrite node K.RUN value s)

def execCancelEpoch (node value : Nat) (s : State) : Host.Outcome State Fault Refusal := .next (commandWrite node K.CANCEL_EPOCH value s)

def execSave (node value : Nat) (s : State) : Host.Outcome State Fault Refusal := .next (commandWrite node K.SAVE value s)

def execRestore (node value : Nat) (s : State) : Host.Outcome State Fault Refusal := .next (commandWrite node K.RESTORE value s)

def execRetireBank (node value : Nat) (s : State) : Host.Outcome State Fault Refusal := .next (commandWrite node K.RETIRE_BANK value s)

def execBist (node value : Nat) (s : State) : Host.Outcome State Fault Refusal := .next (commandWrite node K.BIST value s)

def execStop (node value : Nat) (s : State) : Host.Outcome State Fault Refusal := .next (commandWrite node K.STOP value s)

def execTileConfig (node : Nat) (value : List Byte) (s : State) : Host.Outcome State Fault Refusal :=
  .next (domainWrite node K.TILE_CONFIG value s)

def execFaultAck (node value : Nat) (s : State) : Host.Outcome State Fault Refusal := .next (commandWrite node K.FAULT_ACK value s)

def execSyncLostClear (node value : Nat) (s : State) : Host.Outcome State Fault Refusal :=
  .next (commandWrite node K.SYNC_LOST_CLEAR value s)

def execDeadReadClear (node value : Nat) (s : State) : Host.Outcome State Fault Refusal :=
  .next (commandWrite node K.DEAD_READ_CLEAR value s)

def execEhCountClear (node value : Nat) (s : State) : Host.Outcome State Fault Refusal := .next (commandWrite node K.EH_COUNT value s)

def execHogFlagsClear (node value : Nat) (s : State) : Host.Outcome State Fault Refusal :=
  .next (commandWrite node K.HOG_FLAGS_CLEAR value s)

def execMxLockClear (node value : Nat) (s : State) : Host.Outcome State Fault Refusal := .next (commandWrite node K.MX_LOCK_CLEAR value s)

/-- `REQ_BIAS` of requester `id` on port `port`: an INTEGER32 (06_sumac.md R146, R150). -/
def execReqBias (node port id : Nat) (value : Int) (s : State) : Host.Outcome State Fault Refusal :=
  .next (commandWrite node (if port < 6 ∧ id < 16 then K.REQ_BIAS + 16 * port + id else 0x2300FF)
    (if -(2 ^ 31 : Int) ≤ value ∧ value < (2 ^ 31 : Int) then ofSigned 32 value else 2 ^ 32) s)

def execEccInject (node value : Nat) (s : State) : Host.Outcome State Fault Refusal := .next (commandWrite node K.ECC_INJECT value s)

def execAniseSlot (node : Nat) (value : List Byte) (s : State) : Host.Outcome State Fault Refusal :=
  .next (domainWrite node K.ANISE_SLOT value s)

def execAniseCkpt (node : Nat) (hi : Bool) (value : List Byte) (s : State) : Host.Outcome State Fault Refusal :=
  .next (domainWrite node (if hi then K.ANISE_CKPT_HI else K.ANISE_CKPT_LO) value s)

def execCloveCkpt (node : Nat) (value : List Byte) (s : State) : Host.Outcome State Fault Refusal :=
  .next (domainWrite node K.CLOVE_CKPT value s)

def execAniseColdClear (node value : Nat) (s : State) : Host.Outcome State Fault Refusal :=
  .next (commandWrite node K.ANISE_COLD_CLEAR value s)

def execAniseInit (node value : Nat) (s : State) : Host.Outcome State Fault Refusal := .next (commandWrite node K.ANISE_INIT value s)

def execTraceClear (node value : Nat) (s : State) : Host.Outcome State Fault Refusal := .next (commandWrite node K.TRACE_CLEAR value s)

def execPwrBlock (node value : Nat) (s : State) : Host.Outcome State Fault Refusal := .next (commandWrite node K.PWR_BLOCK value s)

def execPwrIdlePorts (node value : Nat) (s : State) : Host.Outcome State Fault Refusal :=
  .next (commandWrite node K.PWR_IDLE_PORTS value s)

def execPwrIdleGroups (node value : Nat) (s : State) : Host.Outcome State Fault Refusal :=
  .next (commandWrite node K.PWR_IDLE_GROUPS value s)

def execFwImageWrite (node : Nat) (runtime : Bool) (value : List Byte) (s : State) : Host.Outcome State Fault Refusal :=
  .next (domainWrite node (if runtime then K.FW_RUNTIME else K.FW_SERVICE) value s)

def execImageRegionWrite (node : Nat) (hi : Bool) (value : List Byte) (s : State) : Host.Outcome State Fault Refusal :=
  .next (domainWrite node (if hi then K.IMAGE_HI else K.IMAGE_LO) value s)

end Sys2Proof.Machine
end

