-- ==== Sys2Proof/Machine/Ring.lean ====
section
/-! DEFINITION. Frames of the Evien ring (13_evien.md R313 to R324): forwarding, expedited and segmented transfers, aborts and the
heartbeat. -/

namespace Sys2Proof.Machine

/-! ### Forwarding (01_boundary.md R20; R315) -/

/-- `RING_OUT` carries `RING_IN` delayed by one cycle: the bridge is not started yet, in reset or fenced, or the block is off (01_boundary.md
R15, R20). -/
def Blk.bypass (b : Blk) : Bool := b.lc == .off || !b.pins.bridgeOn || b.pins.ringLow || b.ring.fenced

/-- `FORWARD_FRAME`: the forwarding buffer holds two frames, and when a third arrives the first has gone on (R315, R326); a frame addressed to
Doluo is taken, its request being a command of its own. -/
def forwardFrame (f : List Byte) (b : Blk) : Blk :=
  if b.bypass then { b with ring := { b.ring with sent := f } }
  else if byteAt f 1 = Config.nodeAddr then b.count K.RING_RETURNED
  else if byteAt f 0 = Config.nodeAddr then b
  else match b.ring.forward with
    | g :: h :: rest => { b with ring := { b.ring with sent := g, forward := h :: rest ++ [f] } }
    | fs => { b with ring := { b.ring with forward := fs ++ [f] } }

def execForwardFrame (frame : List Byte) (s : State) : Host.Outcome State Fault Refusal :=
  .next (s.upd (fun _ b => forwardFrame frame b))

/-- The CRC at the end of a frame is that of its other bytes (R314). -/
def frameCrcOk (f : List Byte) : Bool := decide (2 ≤ f.length) && (crc16 (f.take (f.length - 2)) == fieldAt f (f.length - 2) 2)

/-- `SVC` or `CTL` holds a reserved value, or `LEN` exceeds 8 (R313, R316). -/
def frameReserved (f : List Byte) : Bool :=
  let svc := (byteAt f 2).toNat
  let ctl := (byteAt f 3).toNat
  svc % 16 = 0 || decide (7 ≤ svc % 16) || svc / 16 % 8 != 0 || decide (16 ≤ ctl) || decide (8 < (byteAt f 7).toNat)

/-- `FRAME_DISCARDED` (R313, R314). -/
def frameDiscarded (f : List Byte) (early : Bool) (b : Blk) : Blk :=
  if b.bypass then b
  else if early || !frameCrcOk f then b.count K.RING_CRC_ERRS
  else if frameReserved f && b.ringUp then
    b.abortReply (byteAt f 1).toNat (fieldAt f 4 2) (byteAt f 6).toNat 0x00010005
  else b

def execFrameDiscarded (frame : List Byte) (early : Bool) (s : State) : Host.Outcome State Fault Refusal :=
  .next (s.upd (fun _ b => frameDiscarded frame early b))

/-! ### Expedited transfers (R317) -/

/-- A refused read: an uncommitted record that it finds enters its warning (12_service_matrix.md R309). -/
def Blk.refuseRead (b : Blk) (node index sub code : Nat) : Blk :=
  (if code = 0x00030006 then b.event 0x0903 1 255 else b).abortReply node index sub code

/-- `EXPEDITED_READ`. -/
def expeditedRead (node index sub : Nat) (st : Store) (b : Blk) : Blk :=
  match readFail st b false index sub with
  | .inl c => b.refuseRead node index sub c
  | .inr e => b.reply node 0x81 0 index sub (entryBytes st b e)

def execExpeditedRead (node index sub : Nat) (s : State) : Host.Outcome State Fault Refusal :=
  .next (ringTake (.expeditedRead node index sub) (recordAccess (256 * index + sub) false) (fun s => s.upd (expeditedRead node index sub)) s)

/-- `EXPEDITED_WRITE`. -/
def execExpeditedWrite (node index sub : Nat) (value : List Byte) (s : State) : Host.Outcome State Fault Refusal :=
  .next (requestWrite node index sub value.length (leVal value) s)

/-! ### Segmented transfers (R319, R320) -/

/-- The open transfer, changed or ended. -/
def Blk.setSeg (b : Blk) (g : Option Seg) : Blk := { b with ring := { b.ring with seg := g } }

/-- Key of the entry that an open transfer moves. -/
def Seg.key (g : Seg) : Nat := 256 * g.index + g.sub

/-- Doluo ends the open transfer with an abort. -/
def Blk.segFail (b : Blk) (g : Seg) (code : Nat) : Blk := (b.setSeg none).abortReply g.node g.index g.sub code

/-- `SEGMENT_INITIATE` of a read: the value is snapshot here, or read live. -/
def segReadInit (node index sub : Nat) (st : Store) (b : Blk) : Blk :=
  match readFail st b true index sub with
  | .inl c => b.refuseRead node index sub c
  | .inr e =>
    let n := readSize st b e
    let data := if (liveEntry e.key).isSome then [] else entryBytes st b e
    (b.setSeg (some { node := node, index := index, sub := sub, read := true, size := n, data := data })).reply
      node 0x83 3 index sub (leBytes 4 n)

/-- `SEGMENT_INITIATE` of a write. -/
def segWriteInit (node index sub size : Nat) (st : Store) (b : Blk) : Blk :=
  match writeFail st b true index sub size 0 with
  | .inl c => refuseDomain st b node index sub c []
  | .inr e =>
    let base := ((domainBase b e.key).getD (0, 0)).2
    (b.setSeg (some { node := node, index := index, sub := sub, read := false, size := size, base := base })).reply
      node 0x83 2 index sub []

/-- `SEGMENT_INITIATE`: refused while a transfer is open. -/
def segmentInitiate (node index sub : Nat) (read : Bool) (size : Nat) (st : Store) (b : Blk) : Blk :=
  if b.ring.seg.isSome then b.abortReply node index sub 0x00010004
  else if read then segReadInit node index sub st b
  else segWriteInit node index sub size st b

def execSegmentInitiate (node index sub : Nat) (read : Bool) (size : Nat) (s : State) : Host.Outcome State Fault Refusal :=
  .next (ringTake (.segmentInitiate node index sub read size) none (fun s => s.upd (segmentInitiate node index sub read size)) s)

/-- A segment of a read: a live read takes its next 32 bytes from the memory as it stands (14_dictionary.md R351). -/
def readSegment (g : Seg) (toggle : Bool) (st : Store) (b : Blk) : Blk :=
  let g1 : Seg := match liveEntry g.key with
    | some (t, base) => if g.pos % 32 = 0 then { g with data := readTarget st b t (base + g.pos) 32 } else g
    | none => g
  let off := if (liveEntry g.key).isSome then g.pos % 32 else g.pos
  let n := min 8 (g.size - g.pos)
  let last := decide (g.size ≤ g.pos + n)
  let b1 := b.setSeg (if last then none else some { g1 with pos := g.pos + n, toggle := !g.toggle })
  b1.reply g.node 0x83 (1 + (if last then 4 else 0) + if toggle then 8 else 0) g.index g.sub (slice g1.data off n)

/-- Anise slots that a checkpoint or slot write has completed: the checks of a restore (09_numerics.md R231). -/
def settleSlots (base : Nat) (data : List Byte) (lo hi : Nat) (b : Blk) : Blk × Bool :=
  ((List.range ((hi / 32) - (lo / 32))).map (fun i => lo / 32 + i)).foldl (fun (x : Blk × Bool) i =>
    let y := x.1.restoreSlot (base / 32 + i) (slice data (32 * i) 32)
    (y.1, x.2 || y.2)) (b, false)

/-- The bytes of a write that have arrived go to their memory. -/
def moveSegment (g : Seg) (t : Nat) (m : Store × Blk) : (Store × Blk) × Seg :=
  let m1 := moveBytes g.key t g.base g.pos (g.data.drop g.pos) m
  let anise := g.key = K.ANISE_SLOT || g.key = K.ANISE_CKPT_LO || g.key = K.ANISE_CKPT_HI
  let r := if anise then settleSlots g.base g.data g.pos g.data.length m1.2 else (m1.2, false)
  ((m1.1, r.1), { g with pos := g.data.length, bad := g.bad || r.2 })

/-- The last segment of a write: checks 8 and 10, the effect, the answer. -/
def endWrite (g : Seg) (ctl : Nat) (m : Store × Blk) : Store × Blk :=
  match domainFail m.2 g.key g.data with
  | some c => (m.1, (refuseDomain m.1 m.2 g.node g.index g.sub c g.data).setSeg none)
  | none =>
    let m1 := finishDomain g.key g.data g.bad (m.1, m.2.noteCommand g.key 0 0)
    (m1.1, (m1.2.setSeg none).reply g.node 0x83 ctl g.index g.sub [])

/-- A segment of a write: the service firmware writes a burst after every second segment and after the last. -/
def writeSegment (g : Seg) (toggle last : Bool) (payload : List Byte) (m : Store × Blk) : Store × Blk :=
  let g1 : Seg := { g with data := g.data ++ payload, toggle := !g.toggle }
  let n := g1.data.length
  let ctl := (if last then 4 else 0) + if toggle then 8 else 0
  if payload.isEmpty || g.size < n || last != (n == g.size) then (m.1, m.2.segFail g 0x00010003)
  else
    let dst := domainBase m.2 g.key
    let t := (dst.getD (0, 0)).1
    let move := dst.isSome && (toggle || last)
    if move && m.2.domainRefused g.key t (g.base + g.pos) (n - g.pos) then
      (m.1, (m.2.mxError 2 t 4 (((mxTargets.find? (fun x => x.1 == t)).getD (0, 0, 0)).2.1 + g.base + g.pos)).segFail g 0x00040002)
    else
      let (m1, g2) := if move then moveSegment g1 t m else (m, g1)
      if last then endWrite g2 ctl m1
      else (m1.1, (m1.2.setSeg (some g2)).reply g.node 0x83 ctl g.index g.sub [])

/-- A segment frame that belongs to no open transfer of its node is answered too (R316): with an abort, whose code no rule gives (log entry
73). -/
def Blk.segUnknown (b : Blk) (node index sub : Nat) : Blk := (b.abortReply node index sub (b.freeValue % 2 ^ 32)).takeFree

/-- `SEGMENT_FRAME`. -/
def segmentFrame (node index sub : Nat) (toggle last : Bool) (payload : List Byte) (s : State) : State :=
  if 8 < payload.length then s.upd (fun _ b => b.abortReply node index sub 0x00010005)
  else match s.blk.ring.seg with
  | none => s.upd (fun _ b => b.segUnknown node index sub)
  | some g =>
    if g.node ≠ node || g.index ≠ index || g.sub ≠ sub then s.upd (fun _ b => b.segUnknown node index sub)
    else if toggle != g.toggle then s.upd (fun _ b => b.segFail g 0x00010001)
    else if g.read then
      s.upd (fun st b => if payload.isEmpty then readSegment g toggle st b else b.segFail g 0x00020005)
    else
      let m := writeSegment g toggle last payload (s.mem, s.blk)
      s.ordered (({ s with mem := m.1, blk := m.2 } : State).upd (fun st b => b.serve st)).mxServe

/-- The access of the bridge that a segment of the open transfer makes. -/
def segAccess (b : Blk) (toggle last : Bool) : Option (Nat × Nat × Bool) :=
  b.ring.seg.bind (fun g =>
    if g.read then (if g.pos % 32 = 0 then (liveEntry g.key).map (fun x => (2, x.1, false)) else none)
    else if toggle || last then (domainBase b g.key).map (fun x => (2, x.1, true)) else none)

def execSegmentFrame (node index sub : Nat) (toggle last : Bool) (payload : List Byte) (s : State) :
    Host.Outcome State Fault Refusal :=
  .next (ringTake (.segmentFrame node index sub toggle last payload) (segAccess s.blk toggle last)
    (segmentFrame node index sub toggle last payload) s)

/-- `REQUESTER_ABORT` (R321). -/
def requesterAbort (index sub : Nat) (b : Blk) : Blk :=
  if b.ringUp && b.ring.seg.any (fun g => g.index == index && g.sub == sub) then b.setSeg none else b

def execRequesterAbort (index sub _code : Nat) (s : State) : Host.Outcome State Fault Refusal :=
  .next (s.upd (fun _ b => requesterAbort index sub b))

/-- `SEGMENT_TIMEOUT` (R320). -/
def segmentTimeout (b : Blk) : Blk :=
  match b.ring.seg with
  | some g => if b.ringUp then (b.count K.RING_SEG_TIMEOUTS).segFail g 0x00010002 else b
  | none => b

def execSegmentTimeout (s : State) : Host.Outcome State Fault Refusal := .next (s.upd (fun _ b => segmentTimeout b))

/-! ### Heartbeat (R323) -/

/-- The heartbeat's payload. -/
def Blk.heartbeatBytes (b : Blk) : List Byte :=
  [BitVec.ofNat 8 b.lc.code, BitVec.ofNat 8 (b.reg K.ID_FLAGS), BitVec.ofNat 8 b.errorReg, BitVec.ofNat 8 b.flt.out]
  ++ leBytes 4 (b.tick.tick % 2 ^ 32)

/-- `HEARTBEAT`: the count restarts. -/
def heartbeat (b : Blk) : Blk :=
  if !b.ringUp || b.rw K.HEARTBEAT_TICKS = 0 then b
  else
    let b1 := if b.ring.beatDue then { b with ring := { b.ring with beatDue := false } }
      else { b with ring := { b.ring with hbCount := 0, hbWall := 0 } }
    b1.reply (b.rw K.RING_DEST) 5 0 0x1017 0 b.heartbeatBytes

def execHeartbeat (s : State) : Host.Outcome State Fault Refusal := .next (s.upd (fun _ b => heartbeat b))

end Sys2Proof.Machine
end

