-- ==== Sys2Proof/Machine/Faults.lean ====
section
/-! DEFINITION. Failures of single units that take the cell out (16_faults.md R380; 11_sequencer.md R285). -/

namespace Sys2Proof.Machine

/-- `TICK_UNIT_MISMATCH`; the unit fails again at its next use. -/
def execTickUnitMismatch (s : State) : Host.Outcome State Fault Refusal :=
  .next (s.upd (fun _ b => if b.lc = .off then b else { b with flt := { b.flt with badTick := true } }.cellOut 0x0B01 255))

/-- `CONVERSION_MISMATCH`; the stage fails again at its next use. -/
def execConversionMismatch (port : Nat) (s : State) : Host.Outcome State Fault Refusal :=
  .next (s.upd (fun _ b => if b.lc = .off then b else { b with flt := { b.flt with badConv := some port } }.cellOut 0x0B02 port))

/-- `MATRIX_PARITY_ERROR`. -/
def execMatrixParityError (target : Nat) (s : State) : Host.Outcome State Fault Refusal :=
  .next (s.upd (fun _ b => if b.lc = .off then b else b.cellOut 0x0904 target))

/-- `BRIDGE_SEND_CRC_MISMATCH`: the bridge is fenced first, so that no frame leaves. -/
def execBridgeSendCrcMismatch (s : State) : Host.Outcome State Fault Refusal :=
  .next (s.upd (fun _ b =>
    if b.lc = .off || b.ring.fenced then b
    else ({ b with ring := { b.ring with fenced := true, seg := none, emcy := [], answers := [], queue := [], now := false } }).cellOut 0x0A01 255))

/-- `SEQ_RAM_UNCORRECTABLE`. -/
def execSeqRamUncorrectable (dataRam : Bool) (s : State) : Host.Outcome State Fault Refusal :=
  .next (if s.blk.lc = .off then s
    else let m := seqFault dataRam (s.mem, s.blk); ({ s with mem := m.1, blk := m.2 } : State).mxServe)

/-- `WATCHDOG_EXPIRY`: the sequencer is held in reset in Safe (12_service_matrix.md R299). -/
def watchdogExpiry (m : Store × Blk) : Store × Blk :=
  if m.2.lc = .off then m else holdSequencer (m.1, (m.2.count K.WDOG_EXPIRIES).cellOut 0x0808 255)

def execWatchdogExpiry (s : State) : Host.Outcome State Fault Refusal :=
  let m := watchdogExpiry (s.mem, s.blk)
  .next ({ s with mem := m.1, blk := m.2 } : State).mxServe

end Sys2Proof.Machine
end

