-- ==== Sys2Proof/Machine/Clock.lean ====
section
/-! DEFINITION. What the block does by itself on an empty queue, one cycle of `AC_CLK` at a time (log entry 22): the event that is due
in this cycle, or, with none left, the end of the cycle. Peers of the endpoint buses hold `READY` high and `VALID` low, every other
input pin keeps its level, and work whose duration no rule fixes ends only by its command. -/

namespace Sys2Proof.Machine

/-- The first command of a list whose condition holds. -/
def firstDue : List (Bool × Instr) → Option Instr
  | [] => none
  | (c, i) :: rest => if c then some i else firstDue rest

/-- The wall cycle `w`, if any, has come. -/
def reached (b : Blk) (w : Option Nat) : Bool := w.any (fun x => decide (x ≤ b.tick.wall))

/-! ### The tick unit (02_tick.md R35 to R48) -/

/-- Freeze, resume and boundary, and what follows from holds (R46). -/
def dueTick (b : Blk) : List (Bool × Instr) :=
  let t := b.tick
  [(b.ticking && t.frozen && reached b t.resumeAt.head?, .counterResume),
   (b.moving && t.ended && !b.boundaryWaits, .tickBoundary),
   (b.moving && reached b t.freezeAt.head?, .counterFreeze),
   (b.ticking && t.frozen && decide (b.cfg K.STRETCH_LIMIT < t.heldTick), .tickAbort),
   (b.ticking && !t.holdSeen && !t.netFault && reached b (t.holdOut.map (fun w => w + b.cfg K.HOLD_LOOKAHEAD)), .holdNetworkFault),
   (b.ticking && b.cfg K.SYNC_MODE != 0 && t.lateOpen && decide (b.cfg K.SYNC_WINDOW ≤ t.unheld), .syncWindowClose),
   (b.moving && !t.guardDone && decide (b.cfg K.TICK_LEN - b.cfg K.GUARD ≤ t.lcyc), .guardBegin)]

/-- The end of `FAULT_SLACK`, behind the rows that commit in its last cycle (07_rows_in_out.md R169). -/
def dueSlack (b : Blk) : Option Instr :=
  if b.moving && !b.tick.slackDone && decide (b.regionEnd + b.cfg K.FAULT_SLACK ≤ b.tick.lcyc + 1) then some .faultSlackEnd else none

/-- A `RUN` that waits for its first tick (R35). -/
def dueRun (b : Blk) : List (Bool × Instr) :=
  let follow := b.cfg K.SYNC_MODE == 1
  let at' (n : Nat) : Bool := b.awaitsTick && reached b (b.tick.runAt.map (fun w => w + n))
  [(!follow && at' 64, .firstTickStart),
   (follow && !b.tick.startDriven && at' 64, .startPulse),
   (follow && at' (b.cfg K.SYNC_MISS_LIMIT * b.cfg K.TICK_LEN), .runPulseTimeout)]

/-! ### The schedule thread (11_sequencer.md R269; 10_descriptors.md R250) -/

/-- The command that issues or releases a descriptor. -/
def descInstr (d : Desc) : Option Instr :=
  match d.opc with
  | 0x01 => some (.tcfg d)
  | 0x02 => some (.trel d)
  | 0x03 => some (.tcancel d)
  | 0x10 => some (.tld d)
  | 0x11 => some (.tst d)
  | 0x20 => some (.tfeed d)
  | 0x21 => some (.tfeedt d)
  | 0x22 => some (.ttake d)
  | 0x30 => some (.tgather d)
  | 0x31 => some (.troute d)
  | 0x32 => some (.tmerge d)
  | 0x33 => some (.treturn d)
  | 0x40 => some (.tmove d)
  | 0x41 => some (.tconv d)
  | 0x50 => some (.tsend d)
  | 0x51 => some (.trecv d)
  | 0x60 => some (.tsave d)
  | 0x61 => some (.trest d)
  | 0x70 => some (.pwr d)
  | 0x71 => some (.mark d)
  | 0x7F => some (.tend d)
  | _ => none

/-- The dependency check that is due. -/
def dueCheck (st : Store) (b : Blk) : Option Instr :=
  if !b.moving || !b.sched.on || b.sched.ended || b.inExt then none
  else match (st.program (b.reg K.PROG_NOW)).find? (fun x => isScheduled x.2 && decide (b.sched.checked ≤ x.1)) with
    | some (i, d) => if d.slotCycle - b.cfg K.HOLD_LOOKAHEAD ≤ b.tick.lcyc then some (.dependencyCheck i) else none
    | none => none

/-- The descriptor of this cycle that acts next: `early` asks for the damage of a late hold, a release, a configuration or a cancel, which
come before the completions of the cycle (03_tile_registers.md R82). -/
def dueIssue (st : Store) (b : Blk) (early : Bool) : Option Instr :=
  match (b.dueDescs st).head? with
  | some x => if !early || issueRank st b x < 4 then descInstr x.2 else none
  | none => none

/-- The next access of a scheduled operation or of a replay. -/
def dueAccess (b : Blk) : Option Instr :=
  if !b.moving || b.inExt then none
  else (b.ops.find? (fun o => !o.opn && o.role != .save && o.role != .preload && !o.taken && (readsTile o.d.opc || o.d.opc == 0x22)
      && o.tick == b.tick.tick && decide (o.base + accessOffset o.d o.n ≤ b.tick.lcyc))).map (fun o =>
    if readsTile o.d.opc then .scheduledReadAccess o.id true {} [] else .scheduledWriteTake o.id none false)

/-! ### Open slots, row writes and commits -/

/-- Ports in the order in which their claims are resolved (04_banks.md R94). -/
def portOrder : List Nat := [4, 5, 0, 1, 2, 3]

/-- A round of a port in which some requester has a candidate (06_sumac.md R140, R141). -/
def dueRound (st : Store) (b : Blk) : Option Instr :=
  let as := schedAccs st b
  (portOrder.find? (fun p =>
    b.roundOpen p && Tab.get (fun _ => 0) b.roundAt p != b.tick.wall + 1 && !(openQuarters b as p).isEmpty
    && ((List.range 16).any (fun i => (candOf b as p i []).isSome)
      || (!b.gStaged.isEmpty && decide (b.gather.length < 32)
        && b.ops.any (fun o => o.d.opc == 0x30 && o.d.port == p && b.gatherOwner o))))).map (fun p => .sumacRound p [] [] [])

/-- Row writes in their bank cycle (05_ports.md R123); a scheduled one stops with the counter. -/
def Blk.dueWrites (b : Blk) : List Nat :=
  (b.writes.filter (fun w => if w.wallDue then decide (w.due ≤ b.tick.wall) else b.moving && decide (w.due ≤ b.tick.beat))).map (fun w => w.wid)

/-- Tile-commit writes whose last row is in the banks, by ascending destination slot (09_numerics.md R228). -/
def Blk.dueCommits (b : Blk) : List Nat := (sortBy (fun o => o.dest) (b.ops.filter (fun o => b.commitDue o))).map (fun o => o.id)

/-- The completions of a cycle (R82): rows reach the banks, and commits follow. What they change of a status word is seen from the next
cycle on (R73). -/
def State.endWrites (s : State) : State :=
  let s1 := s.blk.dueWrites.foldl State.writeDone s
  s1.blk.dueCommits.foldl State.commitOp s1

/-! ### Wall-cycle timeouts -/

/-- Timeouts of row transfers (07_rows_in_out.md R163). -/
def dueRows (b : Blk) : Option Instr :=
  let lim := b.cfg K.LS_ROW_TIMEOUT
  if !b.moves then none
  else match b.xfers.find? (fun x => !x.orphan && x.aborting.isSome && decide (x.abortAt + lim ≤ b.tick.wall)) with
  | some x => some (.abortAckTimeout x.tn)
  | none => (b.xfers.find? (fun x => !x.orphan && x.aborting.isNone && x.suspended.isNone && decide (x.lastBeat + lim ≤ b.tick.wall)
      && (b.currentXfer x.store).any (fun y => y.tn == x.tn))).map (fun x => .lsRowTimeout x.tn)

/-- A requester whose penalty is done (06_sumac.md R145). -/
def dueHog (b : Blk) : Option Instr :=
  (b.reqs.find? (fun r => r.2.cut && decide (r.2.penaltyEnd ≤ b.tick.wall))).map (fun r => .hogPenaltyEnd (r.1 / 16) (r.1 % 16))

/-- Timeouts of the service matrix and the remap switch (12_service_matrix.md R297, R306; 11_sequencer.md R275). -/
def dueMatrix (b : Blk) : Option Instr :=
  match b.mx.waits.find? (fun w => !w.behalf && w.why != 5 && b.mxFirst w
      && decide (w.since + b.cfg (K.MX_TIMEOUT_M0 + w.burst.master) ≤ b.tick.wall)) with
  | some w => some (.matrixTimeout w.burst.master)
  | none =>
    if b.flt.trWait.head?.any (fun x => decide (x.since + b.cfg K.MX_TIMEOUT_M4 ≤ b.tick.wall)) && b.mx.waits.all (fun w => w.burst.master != 4 || w.behalf)
    then some (.matrixTimeout 4)
    else match b.mx.locks.find? (fun l => decide (l.2.2 + b.cfg K.MX_LOCK_MAX ≤ b.tick.wall) && !b.lockProceeds l) with
    | some l => some (.lockTimeout l.1)
    | none => if b.mx.remapWait && decide (b.mx.remapAt < b.tick.wall) && !b.romOpen then some .remapSwitch else none

/-- Power, the save engine and heartbeat (15_states_power.md R362, R363, R366; 13_evien.md R323). -/
def dueService (b : Blk) : List (Bool × Instr) :=
  [(b.lc != .boot && reached b b.pwr.wakeEnd, .wakeComplete),
   (!b.pwr.timedOut && !b.pwr.ack && reached b (b.pwr.waitAck.map (fun w => w + b.cfg K.PWR_ACK_TIMEOUT)), .pwrAckTimeout),
   (b.srMoved, .saveRestoreDone .moved []),
   (b.ring.beatDue && b.ringUp && b.rw K.HEARTBEAT_TICKS != 0, .heartbeat)]

/-- A replay that starts now (09_numerics.md R220). -/
def dueReplay (b : Blk) : Option Instr := if b.replayReady then some .replayStart else none

/-- What is due before the completions of the cycle. -/
def Blk.dueFirst (st : Store) (b : Blk) : Option Instr :=
  [firstDue (dueTick b), firstDue (dueRun b), dueReplay b, dueCheck st b, dueIssue st b true].findSome? id

/-- What is due behind them, before the endpoint buses are driven. -/
def Blk.dueThen (st : Store) (b : Blk) : Option Instr :=
  [dueSlack b, dueIssue st b false, dueAccess b, dueRows b, dueHog b, dueMatrix b].findSome? id

/-! ### The end of a cycle -/

/-- A scheduled beat reaches its endpoint bus (05_ports.md R123, R132, R134). -/
def deliverSched (b : Blk) (x : OutBeat) : Blk :=
  let lost := b.epOut x.endpt
  let b1 := { b with
    outs := dropOut x b.outs,
    buses := if lost then b.buses else Tab.set (fun _ => ({} : Beat)) b.buses x.endpt x.beat }
  let b2 := if x.ready && !lost then b1
    else (b1.beatFault K.SCHED_NOT_READY x.endpt x.port 1 x.beat.qen.toNat none).firstEvent 128 0x0301 1 x.endpt
  b2.settle x.op

/-- Scheduled beats that arrive in this cycle. -/
def Blk.arriving (b : Blk) : List OutBeat :=
  if b.moving then b.outs.filter (fun x => !x.opn && decide (x.due ≤ b.tick.beat)) else []

/-- Every bus carries its scheduled beat, or its oldest buffered one. -/
def Blk.driveBuses (b : Blk) : Blk :=
  let now := b.arriving
  let b1 := now.foldl (fun b x => deliverSched b x) b
  (List.range 13).foldl (fun b e =>
    if now.any (fun x => x.endpt == e) || b.busLow e || !b.moves then b
    else match b.oldestOut e with
      | some x => if x.due ≤ b.tick.wall then deliverOut b x else b
      | none => b) b1

/-- The buses are driven once in a cycle, before its rounds (06_sumac.md R148). -/
def State.drive (s : State) : State :=
  s.cyc (fun st b => ({ b.driveBuses with droveAt := b.tick.wall + 1 }).serve st)

/-- One frame leaves the bridge: forwarded ones first, then emergency frames (13_evien.md R315, R324). -/
def Blk.sendFrame (b : Blk) : Blk :=
  if b.bypass then b
  else match b.ring.forward, b.ring.emcy, b.ring.answers with
    | f :: r, _, _ => { b with ring := { b.ring with sent := f, forward := r } }
    | [], f :: r, _ => { b with ring := { b.ring with sent := f, emcy := r } }
    | [], [], f :: r => { b with ring := { b.ring with sent := f, answers := r } }
    | [], [], [] => b

/-- While no tick runs, `TICK_LEN` wall cycles count as one tick of the heartbeat period (R323). -/
def Blk.idleHeart (b : Blk) : Blk :=
  if b.ticking then b
  else if b.cfg K.TICK_LEN ≤ b.ring.hbWall + 1 then ({ b with ring := { b.ring with hbWall := 0 } }).heartTick
  else { b with ring := { b.ring with hbWall := b.ring.hbWall + 1 } }

/-- The next wall cycle; an unheld one advances the logical counter, whose last value stays through guard extensions (02_tick.md R37)
and through the boundary. The boundary, or the guard extension before it, waits while `HOLD_IN` has been high since logical cycle
`TICK_LEN` - 1 (R46); a rise in an extension cycle freezes it as any other cycle (R18). -/
def Blk.nextCycle (b : Blk) : Blk :=
  let t := b.tick
  let t1 : TickUnit := { t with wall := t.wall + 1 }
  if !b.ticking then { b with tick := t1 }
  else if t.frozen then
    let b1 := { b with tick := t1 }
    if reached b1 t.resumeAt.head? then b1 else b1.heldCycle
  else if t.endHold then { b with tick := { t1 with beat := t.beat + 1 } }
  else
    let u := t.unheld + 1
    let done := decide (b.tickUnheld - t.cut ≤ u)
    { b with tick := { t1 with
      unheld := u, beat := t.beat + 1, ended := done, endHold := t.holdIn && u == b.cfg K.TICK_LEN, lcyc := if done then t.lcyc else min (t.lcyc + 1) (b.cfg K.TICK_LEN - 1) } }

/-- A scrub step runs in this cycle; release scrubs start after the first 64 unheld cycles of `GUARD` (03_tile_registers.md R75). -/
def Blk.scrubDue (b : Blk) : Option Nat :=
  if b.tick.frozen || !b.ticking || decide (b.cfg K.TICK_LEN - b.cfg K.GUARD + 64 ≤ b.tick.unheld) then b.scrubNow else none

/-- The end of a cycle in which nothing more is due: its events and trace records are put in order. -/
def advance (s : State) : State :=
  let m := match s.blk.scrubDue with
    | some k => scrubStep k (s.mem, s.blk)
    | none => (s.mem, s.blk)
  let m := (restoreStep false m).getD m
  let b1 := fillQueue (m.2.saveClosed.srSend.endCycle.sendFrame)
  (({ s with mem := m.1, blk := b1.idleHeart.nextCycle.startCycle } : State).upd (fun st b => b.serve st)).mxServe

/-- The request at the head of the bridge's queue can go on: its access waits no longer (13_evien.md R318). -/
def Blk.ringDue (b : Blk) : Bool :=
  b.ringUp && !b.ring.queue.isEmpty && !b.ring.now && !b.mx.waits.any (fun w => w.ring)

/-- It is taken from its queue, and is the next command. -/
def State.ringNext (s : State) : State :=
  match s.blk.ring.queue with
  | c :: rest => { s with blk := { s.blk with ring := { s.blk.ring with queue := rest, now := true } }, pending := c :: s.pending }
  | [] => s

/-- What the block does by itself: the event that is due in this cycle of `AC_CLK`, as its command, or the completions, the deliveries or
the end of the cycle. -/
def idleNext (s : State) : Instr ⊕ State :=
  if s.blk.lc == .off || s.blk.pins.coldLow then .inr s
  else match s.blk.dueFirst s.mem with
    | some i => .inl i
    | none =>
      if !s.blk.dueWrites.isEmpty || !s.blk.dueCommits.isEmpty then .inr s.endWrites
      else match s.blk.dueThen s.mem with
        | some i => .inl i
        | none =>
          if s.blk.ringDue then .inr s.ringNext
          else match firstDue (dueService s.blk) with
            | some i => .inl i
            | none =>
              if s.blk.droveAt != s.blk.tick.wall + 1 then .inr s.drive
              else match dueRound s.mem s.blk with
                | some i => .inl i
                | none => .inr (advance s)

end Sys2Proof.Machine
end

