-- ==== Sys2Proof/Machine/Dispatch.lean ====
section
/-! DEFINITION. One arm for each command: its direct call. -/

namespace Sys2Proof.Machine

/-- The command's effect on everything but the queue. -/
def exec (i : Instr) (s : State) : Host.Outcome State Fault Refusal :=
  match i with
  | .coldReset cycles => Sys2Proof.Machine.execColdReset cycles s
  | .coldResetRelease romOk => Sys2Proof.Machine.execColdResetRelease romOk s
  | .warmReset cycles => Sys2Proof.Machine.execWarmReset cycles s
  | .warmResetRelease romOk => Sys2Proof.Machine.execWarmResetRelease romOk s
  | .ringReset cycles => Sys2Proof.Machine.execRingReset cycles s
  | .wrapperReset => Sys2Proof.Machine.execWrapperReset s
  | .progCtrlStart node => Sys2Proof.Machine.execProgCtrlStart node s
  | .progCtrlReturn node => Sys2Proof.Machine.execProgCtrlReturn node s
  | .remapWrite value => Sys2Proof.Machine.execRemapWrite value s
  | .remapSwitch => Sys2Proof.Machine.execRemapSwitch s
  | .serviceFirmwareStart => Sys2Proof.Machine.execServiceFirmwareStart s
  | .syncInPulse width => Sys2Proof.Machine.execSyncInPulse width s
  | .syncWindowClose => Sys2Proof.Machine.execSyncWindowClose s
  | .holdInRise => Sys2Proof.Machine.execHoldInRise s
  | .holdInFall => Sys2Proof.Machine.execHoldInFall s
  | .counterFreeze => Sys2Proof.Machine.execCounterFreeze s
  | .counterResume => Sys2Proof.Machine.execCounterResume s
  | .holdNetworkFault => Sys2Proof.Machine.execHoldNetworkFault s
  | .tickAbort => Sys2Proof.Machine.execTickAbort s
  | .pwrAckRise => Sys2Proof.Machine.execPwrAckRise s
  | .pwrAckTimeout => Sys2Proof.Machine.execPwrAckTimeout s
  | .railLost => Sys2Proof.Machine.execRailLost s
  | .wakeComplete => Sys2Proof.Machine.execWakeComplete s
  | .tickBoundary => Sys2Proof.Machine.execTickBoundary s
  | .guardBegin => Sys2Proof.Machine.execGuardBegin s
  | .faultSlackEnd => Sys2Proof.Machine.execFaultSlackEnd s
  | .scrubSlot => Sys2Proof.Machine.execScrubSlot s
  | .dependencyCheck idx => Sys2Proof.Machine.execDependencyCheck idx s
  | .tcfg d => Sys2Proof.Machine.execTcfg d s
  | .trel d => Sys2Proof.Machine.execTrel d s
  | .tcancel d => Sys2Proof.Machine.execTcancel d s
  | .tld d => Sys2Proof.Machine.execTld d s
  | .tst d => Sys2Proof.Machine.execTst d s
  | .tfeed d => Sys2Proof.Machine.execTfeed d s
  | .tfeedt d => Sys2Proof.Machine.execTfeedt d s
  | .ttake d => Sys2Proof.Machine.execTtake d s
  | .tgather d => Sys2Proof.Machine.execTgather d s
  | .troute d => Sys2Proof.Machine.execTroute d s
  | .tmerge d => Sys2Proof.Machine.execTmerge d s
  | .treturn d => Sys2Proof.Machine.execTreturn d s
  | .tmove d => Sys2Proof.Machine.execTmove d s
  | .tconv d => Sys2Proof.Machine.execTconv d s
  | .tsend d => Sys2Proof.Machine.execTsend d s
  | .trecv d => Sys2Proof.Machine.execTrecv d s
  | .tsave d => Sys2Proof.Machine.execTsave d s
  | .trest d => Sys2Proof.Machine.execTrest d s
  | .pwr d => Sys2Proof.Machine.execPwr d s
  | .mark d => Sys2Proof.Machine.execMark d s
  | .tend d => Sys2Proof.Machine.execTend d s
  | .scheduledReadAccess op ready portErr upsets => Sys2Proof.Machine.execScheduledReadAccess op ready portErr upsets s
  | .scheduledWriteTake op beat portErr => Sys2Proof.Machine.execScheduledWriteTake op beat portErr s
  | .rowWriteComplete wid => Sys2Proof.Machine.execRowWriteComplete wid s
  | .tileCommit op => Sys2Proof.Machine.execTileCommit op s
  | .replayStart => Sys2Proof.Machine.execReplayStart s
  | .sumacRound port offers portErr upsets => Sys2Proof.Machine.execSumacRound port offers portErr upsets s
  | .hogPenaltyEnd port id => Sys2Proof.Machine.execHogPenaltyEnd port id s
  | .openReadDeliver endpt ready => Sys2Proof.Machine.execOpenReadDeliver endpt ready s
  | .epReadyTimeout endpt => Sys2Proof.Machine.execEpReadyTimeout endpt s
  | .validWithdrawn endpt qen => Sys2Proof.Machine.execValidWithdrawn endpt qen s
  | .spuriousValid endpt qen => Sys2Proof.Machine.execSpuriousValid endpt qen s
  | .rowFault tn row cause => Sys2Proof.Machine.execRowFault tn row cause s
  | .faultResolved tn cause => Sys2Proof.Machine.execFaultResolved tn cause s
  | .faultTerminal tn cause => Sys2Proof.Machine.execFaultTerminal tn cause s
  | .storedBelow tn row => Sys2Proof.Machine.execStoredBelow tn row s
  | .abortAcknowledged tn row => Sys2Proof.Machine.execAbortAcknowledged tn row s
  | .lsRowTimeout tn => Sys2Proof.Machine.execLsRowTimeout tn s
  | .abortAckTimeout tn => Sys2Proof.Machine.execAbortAckTimeout tn s
  | .mergeContribution b => Sys2Proof.Machine.execMergeContribution b s
  | .shardClose b => Sys2Proof.Machine.execShardClose b s
  | .mergeRootReady op row => Sys2Proof.Machine.execMergeRootReady op row s
  | .routeRow b => Sys2Proof.Machine.execRouteRow b s
  | .routeClose b => Sys2Proof.Machine.execRouteClose b s
  | .returnRow b => Sys2Proof.Machine.execReturnRow b s
  | .returnClose b => Sys2Proof.Machine.execReturnClose b s
  | .tickUnitMismatch => Sys2Proof.Machine.execTickUnitMismatch s
  | .conversionMismatch port => Sys2Proof.Machine.execConversionMismatch port s
  | .matrixParityError target => Sys2Proof.Machine.execMatrixParityError target s
  | .bridgeSendCrcMismatch => Sys2Proof.Machine.execBridgeSendCrcMismatch s
  | .seqRamUncorrectable dataRam => Sys2Proof.Machine.execSeqRamUncorrectable dataRam s
  | .watchdogExpiry => Sys2Proof.Machine.execWatchdogExpiry s
  | .matrixBurst b ecc => Sys2Proof.Machine.execMatrixBurst b ecc s
  | .matrixTimeout master => Sys2Proof.Machine.execMatrixTimeout master s
  | .lockTimeout target => Sys2Proof.Machine.execLockTimeout target s
  | .forwardFrame frame => Sys2Proof.Machine.execForwardFrame frame s
  | .expeditedRead node index sub => Sys2Proof.Machine.execExpeditedRead node index sub s
  | .expeditedWrite node index sub value => Sys2Proof.Machine.execExpeditedWrite node index sub value s
  | .segmentInitiate node index sub read size => Sys2Proof.Machine.execSegmentInitiate node index sub read size s
  | .segmentFrame node index sub toggle last payload => Sys2Proof.Machine.execSegmentFrame node index sub toggle last payload s
  | .requesterAbort index sub code => Sys2Proof.Machine.execRequesterAbort index sub code s
  | .segmentTimeout => Sys2Proof.Machine.execSegmentTimeout s
  | .heartbeat => Sys2Proof.Machine.execHeartbeat s
  | .dictWrite node index sub value => Sys2Proof.Machine.execDictWrite node index sub value s
  | .loadImage node value => Sys2Proof.Machine.execLoadImage node value s
  | .imageValidationDone => Sys2Proof.Machine.execImageValidationDone s
  | .arm node value => Sys2Proof.Machine.execArm node value s
  | .run node value => Sys2Proof.Machine.execRun node value s
  | .startPulse => Sys2Proof.Machine.execStartPulse s
  | .firstTickStart => Sys2Proof.Machine.execFirstTickStart s
  | .runPulseTimeout => Sys2Proof.Machine.execRunPulseTimeout s
  | .cancelEpoch node value => Sys2Proof.Machine.execCancelEpoch node value s
  | .save node value => Sys2Proof.Machine.execSave node value s
  | .restore node value => Sys2Proof.Machine.execRestore node value s
  | .saveRestoreDone outcome image => Sys2Proof.Machine.execSaveRestoreDone outcome image s
  | .retireBank node value => Sys2Proof.Machine.execRetireBank node value s
  | .bist node value => Sys2Proof.Machine.execBist node value s
  | .bistDone banks mergeBuf anise trace => Sys2Proof.Machine.execBistDone banks mergeBuf anise trace s
  | .stop node value => Sys2Proof.Machine.execStop node value s
  | .tileConfig node value => Sys2Proof.Machine.execTileConfig node value s
  | .faultAck node value => Sys2Proof.Machine.execFaultAck node value s
  | .syncLostClear node value => Sys2Proof.Machine.execSyncLostClear node value s
  | .deadReadClear node value => Sys2Proof.Machine.execDeadReadClear node value s
  | .ehCountClear node value => Sys2Proof.Machine.execEhCountClear node value s
  | .hogFlagsClear node value => Sys2Proof.Machine.execHogFlagsClear node value s
  | .mxLockClear node value => Sys2Proof.Machine.execMxLockClear node value s
  | .reqBias node port id value => Sys2Proof.Machine.execReqBias node port id value s
  | .eccInject node value => Sys2Proof.Machine.execEccInject node value s
  | .aniseSlot node value => Sys2Proof.Machine.execAniseSlot node value s
  | .aniseCkpt node hi value => Sys2Proof.Machine.execAniseCkpt node hi value s
  | .cloveCkpt node value => Sys2Proof.Machine.execCloveCkpt node value s
  | .aniseColdClear node value => Sys2Proof.Machine.execAniseColdClear node value s
  | .aniseInit node value => Sys2Proof.Machine.execAniseInit node value s
  | .traceClear node value => Sys2Proof.Machine.execTraceClear node value s
  | .pwrBlock node value => Sys2Proof.Machine.execPwrBlock node value s
  | .pwrIdlePorts node value => Sys2Proof.Machine.execPwrIdlePorts node value s
  | .pwrIdleGroups node value => Sys2Proof.Machine.execPwrIdleGroups node value s
  | .fwImageWrite node runtime value => Sys2Proof.Machine.execFwImageWrite node runtime value s
  | .imageRegionWrite node hi value => Sys2Proof.Machine.execImageRegionWrite node hi value s
  | .ringResetRelease => Sys2Proof.Machine.execRingResetRelease s
  | .controlRailLoss => Sys2Proof.Machine.execControlRailLoss s
  | .frameDiscarded frame early => Sys2Proof.Machine.execFrameDiscarded frame early s
  | .unmatchedBeatDiscard endpt b => Sys2Proof.Machine.execUnmatchedBeatDiscard endpt b s
  | .issueQueueFill => Sys2Proof.Machine.execIssueQueueFill s

end Sys2Proof.Machine
end

