-- ==== Sys2Proof/WellFormed.lean ====
section
/-! DEFINITION. Well-formed commands: every operand lies in the range that its field has in the spec. The meanings are total on
ill-formed ones too; this says which operands a sender can spell. -/

namespace Sys2Proof

/-- A ring address, an index, a sub-index and a reference (13_evien.md R313). -/
def wfNode (n : Nat) : Bool := decide (n < 256)
def wfKey (index sub : Nat) : Bool := decide (index < 65536) && decide (sub < 256)

/-- A scalar value has at most 8 bytes (14_dictionary.md R330). -/
def wfScalar (v : Nat) : Bool := decide (v < 2 ^ 64)

/-- An endpoint bus (01_boundary.md R23) and a port (05_ports.md R114). -/
def wfEndpt (e : Nat) : Bool := decide (e < 13)
def wfPort (p : Nat) : Bool := decide (p < 6)

/-- A beat: at most 1,024 payload bytes and 128 sideband bytes (R23). -/
def wfBeat (b : Beat) : Bool := decide (b.data.length ≤ 1024) && decide (b.sb.length ≤ 128)

/-- An offered beat. -/
def wfOffer (o : Offer) : Bool := wfEndpt o.endpt && wfBeat o.beat

/-- A merge buffer has 1,024 rows (08_route_merge.md R179); a port has 16 requesters (06_sumac.md R137). -/
def wfPathErr (e : PathErr) : Bool := e.buf.all (fun n => decide (n < 1024))

/-- A word of a bank array (04_banks.md R87): 34 banks of 1,024 entries; 32 data words or 4 sideband words. -/
def wfUpset (u : Upset) : Bool :=
  decide (u.bank < 34) && decide (u.entry < 1024) && decide (u.word < if u.sb then 4 else 32)

/-- The opcodes of R245. -/
def opcodes : List Nat :=
  [0x01, 0x02, 0x03, 0x10, 0x11, 0x20, 0x21, 0x22, 0x30, 0x31, 0x32, 0x33, 0x40, 0x41, 0x50, 0x51, 0x60, 0x61, 0x70, 0x71, 0x7F]

/-- The fields every descriptor has (10_descriptors.md R241 to R243). -/
def wfDescHead (d : Desc) : Bool :=
  decide (d.cadence < 32) && decide (d.port < 16) && decide (d.endpt < 16) && decide (d.slotCycle < 2 ^ 21)
  && decide (d.req < 16) && decide (d.deadline < 2 ^ 21)

/-- The operand fields, as wide as R245 gives them. -/
def wfDescOperands (d : Desc) : Bool :=
  [d.slot, d.srcBase, d.resBase, d.dst].all (fun x => decide (x < 512))
  && [d.start, d.nrows, d.nslots, d.srcTiles, d.nexp, d.bktTiles, d.resTiles, d.dstTiles, d.chan, d.gmask].all (fun x => decide (x < 256))
  && [d.rgrp, d.epoch, d.ifirst, d.nidx, d.opid, d.cap].all (fun x => decide (x < 65536))
  && decide (d.shape < 2 ^ 32) && decide (d.scaleSlot < 4096) && decide (d.base < 2 ^ 64)
  && decide (-(2 ^ 31 : Int) ≤ d.stride) && decide (d.stride < 2 ^ 31) && decide (d.accPort < 4) && decide (d.choices < 32)
  && decide (d.wport < 16) && decide (d.ctx < 2) && decide (d.limit < 2 ^ 32) && decide (d.pstate < 4) && decide (d.pmask < 64)
  && decide (d.markId < 2 ^ 32)

/-- A descriptor with opcode `opc`. -/
def wfDesc (opc : Nat) (d : Desc) : Bool := d.opc == opc && opcodes.contains opc && wfDescHead d && wfDescOperands d

/-- A burst that a master can make (12_service_matrix.md R289, R292): 1 to 16 aligned beats of a power of two bytes. -/
def wfBurst (u : Burst) : Bool :=
  decide (u.master < 6) && [1, 2, 4, 8, 16, 32].contains u.size && decide (1 ≤ u.beats) && decide (u.beats ≤ 16)
  && decide (u.addr < 2 ^ 32) && u.addr % u.size == 0 && (!u.write || u.data.length == u.size * u.beats)

/-- A ring frame: 8 header bytes, at most 8 payload bytes, 2 CRC bytes (13_evien.md R313). -/
def wfFrame (f : List Byte) : Bool := decide (f.length ≤ 18)

/-- A transfer number and a row of a status beat (07_rows_in_out.md R155). -/
def wfStatus (tn row : Nat) : Bool := decide (tn < 65536) && decide (row < 256)

/-- Every operand of a command is in range. -/
def wellFormed : Instr → Bool
  | .coldReset _ => true
  | .coldResetRelease _ => true
  | .warmReset _ => true
  | .warmResetRelease _ => true
  | .ringReset _ => true
  | .wrapperReset => true
  | .progCtrlStart node => wfNode node
  | .progCtrlReturn node => wfNode node
  | .remapWrite value => decide (value < 2 ^ 32)
  | .remapSwitch => true
  | .serviceFirmwareStart => true
  | .syncInPulse _ => true
  | .syncWindowClose => true
  | .holdInRise => true
  | .holdInFall => true
  | .counterFreeze => true
  | .counterResume => true
  | .holdNetworkFault => true
  | .tickAbort => true
  | .pwrAckRise => true
  | .pwrAckTimeout => true
  | .railLost => true
  | .wakeComplete => true
  | .tickBoundary => true
  | .guardBegin => true
  | .faultSlackEnd => true
  | .scrubSlot => true
  | .dependencyCheck idx => decide (idx < 65536)
  | .tcfg d => wfDesc 0x01 d
  | .trel d => wfDesc 0x02 d
  | .tcancel d => wfDesc 0x03 d
  | .tld d => wfDesc 0x10 d
  | .tst d => wfDesc 0x11 d
  | .tfeed d => wfDesc 0x20 d
  | .tfeedt d => wfDesc 0x21 d
  | .ttake d => wfDesc 0x22 d
  | .tgather d => wfDesc 0x30 d
  | .troute d => wfDesc 0x31 d
  | .tmerge d => wfDesc 0x32 d
  | .treturn d => wfDesc 0x33 d
  | .tmove d => wfDesc 0x40 d
  | .tconv d => wfDesc 0x41 d
  | .tsend d => wfDesc 0x50 d
  | .trecv d => wfDesc 0x51 d
  | .tsave d => wfDesc 0x60 d
  | .trest d => wfDesc 0x61 d
  | .pwr d => wfDesc 0x70 d
  | .mark d => wfDesc 0x71 d
  | .tend d => wfDesc 0x7F d
  | .scheduledReadAccess _ _ err upsets => wfPathErr err && upsets.all wfUpset
  | .scheduledWriteTake _ beat _ => beat.all wfBeat
  | .rowWriteComplete _ => true
  | .tileCommit _ => true
  | .replayStart => true
  | .sumacRound port offers errs upsets =>
    wfPort port && offers.all wfOffer && errs.all (fun e => decide (e.1 < 16) && wfPathErr e.2) && upsets.all wfUpset
  | .hogPenaltyEnd port id => wfPort port && decide (id < 16)
  | .openReadDeliver endpt _ => wfEndpt endpt
  | .epReadyTimeout endpt => wfEndpt endpt
  | .validWithdrawn endpt _ => wfEndpt endpt
  | .spuriousValid endpt _ => wfEndpt endpt
  | .rowFault tn row cause => wfStatus tn row && decide (cause < 256)
  | .faultResolved tn cause => wfStatus tn 0 && decide (cause < 256)
  | .faultTerminal tn cause => wfStatus tn 0 && decide (cause < 256)
  | .storedBelow tn row => wfStatus tn row
  | .abortAcknowledged tn row => wfStatus tn row
  | .lsRowTimeout tn => wfStatus tn 0
  | .abortAckTimeout tn => wfStatus tn 0
  | .mergeContribution b => wfBeat b
  | .shardClose b => wfBeat b
  | .mergeRootReady _ root => root.bufErr.all (fun n => decide (n < 1024))
  | .routeRow b => wfBeat b
  | .routeClose b => wfBeat b
  | .returnRow b => wfBeat b
  | .returnClose b => wfBeat b
  | .tickUnitMismatch => true
  | .conversionMismatch port => wfPort port
  | .matrixParityError target => decide (target < 10) || target == 255
  | .bridgeSendCrcMismatch => true
  | .seqRamUncorrectable _ => true
  | .watchdogExpiry => true
  | .matrixBurst b _ => wfBurst b
  | .matrixTimeout master => decide (master < 6)
  | .lockTimeout target => decide (target < 10)
  | .forwardFrame frame => wfFrame frame
  | .expeditedRead node index sub => wfNode node && wfKey index sub
  | .expeditedWrite node index sub value => wfNode node && wfKey index sub && decide (value.length ≤ 8)
  | .segmentInitiate node index sub _ size => wfNode node && wfKey index sub && decide (size < 2 ^ 32)
  | .segmentFrame node index sub _ _ payload => wfNode node && wfKey index sub && decide (payload.length ≤ 8)
  | .requesterAbort index sub code => wfKey index sub && decide (code < 2 ^ 32)
  | .segmentTimeout => true
  | .heartbeat => true
  | .dictWrite node index sub value => wfNode node && wfKey index sub && wfScalar value
  | .loadImage node value => wfNode node && wfScalar value
  | .imageValidationDone => true
  | .arm node value => wfNode node && wfScalar value
  | .run node value => wfNode node && wfScalar value
  | .startPulse => true
  | .firstTickStart => true
  | .runPulseTimeout => true
  | .cancelEpoch node value => wfNode node && wfScalar value
  | .save node value => wfNode node && wfScalar value
  | .restore node value => wfNode node && wfScalar value
  | .saveRestoreDone _ _ => true
  | .retireBank node value => wfNode node && wfScalar value
  | .bist node value => wfNode node && wfScalar value
  | .bistDone banks _ _ _ => banks.all (fun p => decide (p < 34))
  | .stop node value => wfNode node && wfScalar value
  | .tileConfig node value => wfNode node && decide (value.length < 2 ^ 32)
  | .faultAck node value => wfNode node && wfScalar value
  | .syncLostClear node value => wfNode node && wfScalar value
  | .deadReadClear node value => wfNode node && wfScalar value
  | .ehCountClear node value => wfNode node && wfScalar value
  | .hogFlagsClear node value => wfNode node && wfScalar value
  | .mxLockClear node value => wfNode node && wfScalar value
  | .reqBias node port id _ => wfNode node && wfPort port && decide (id < 16)
  | .eccInject node value => wfNode node && wfScalar value
  | .aniseSlot node value => wfNode node && decide (value.length < 2 ^ 32)
  | .aniseCkpt node _ value => wfNode node && decide (value.length < 2 ^ 32)
  | .cloveCkpt node value => wfNode node && decide (value.length < 2 ^ 32)
  | .aniseColdClear node value => wfNode node && wfScalar value
  | .aniseInit node value => wfNode node && wfScalar value
  | .traceClear node value => wfNode node && wfScalar value
  | .pwrBlock node value => wfNode node && wfScalar value
  | .pwrIdlePorts node value => wfNode node && wfScalar value
  | .pwrIdleGroups node value => wfNode node && wfScalar value
  | .fwImageWrite node _ value => wfNode node && decide (value.length < 2 ^ 32)
  | .imageRegionWrite node _ value => wfNode node && decide (value.length < 2 ^ 32)
  | .ringResetRelease => true
  | .controlRailLoss => true
  | .frameDiscarded frame _ => decide (frame.length ≤ 265)
  | .unmatchedBeatDiscard endpt b => wfEndpt endpt && wfBeat b
  | .issueQueueFill => true

end Sys2Proof
end

