-- ==== Sys2Proof/Safety.lean ====
section
/-! DEFINITION. The words in which statements are made: the canonical form of the memories, what a command leaves alone, what the
logs show, and when nothing waits for the service thread. -/

namespace Sys2Proof.Machine

/-! ### Canonical memories -/

/-- Every byte memory is in its one canonical form: keys strictly rising, no byte listed that is 0. -/
def Store.canonical (st : Store) : Prop :=
  Tab.wf zeroByte st.data ∧ Tab.wf zeroByte st.side ∧ Tab.wf zeroByte st.marks ∧ Tab.wf zeroByte st.prog
    ∧ Tab.wf zeroByte st.dram ∧ Tab.wf zeroByte st.dict

/-! ### What a command leaves alone -/

/-- A record entry as stored. -/
def Blk.recAt (b : Blk) (k : Nat) : List Byte := Tab.get (fun _ => []) b.recs k

/-- The block without its dictionary values and its logs: error history, trace, emergency queue, `FAULT_OUT`. -/
def Blk.core (b : Blk) : Blk :=
  { b with
    regs := [], recs := [], trace := [], flt := { b.flt with out := 0, ehSeq := 0, trSeq := 0, outAt := [], today := [], trOld := [], trDrop := [], trWait := [] }, ring := { b.ring with emcy := [] } }

/-- Scalar entries that the logs write (14_dictionary.md R341, R346; 13_evien.md R324). -/
def logRegs : List Nat :=
  [K.EH_COUNT, K.EH_NEXT, K.EH_TOTAL, K.EMCY_LOST, K.TRACE_NEXT, K.TRACE_FILL, K.TRACE_LOST]

/-- A record of the error history. -/
def logRec (k : Nat) : Bool := decide (K.EH_COUNT < k) && decide (k ≤ K.EH_COUNT + 16)

/-- From `b` to `c` only the scalar entries `regs`, the records `recs` and the logs change, and no `FAULT_OUT` pin falls. -/
structure Only (regs recs : List Nat) (b c : Blk) : Prop where
  core : c.core = b.core
  reg  : ∀ k, k ∉ logRegs → k ∉ regs → c.reg k = b.reg k
  rcd  : ∀ k, logRec k = false → k ∉ recs → c.recAt k = b.recAt k
  out  : ∀ i, bit b.flt.out i = true → bit c.flt.out i = true

/-- The entry of the error history made last: code, class, unit. -/
def Blk.newest (b : Blk) : Nat × Nat × Nat :=
  let e := b.record (K.EH_COUNT + ((b.reg K.EH_NEXT + 14) % 16 + 1)) 16
  (fieldAt e 0 2, fieldAt e 2 1, fieldAt e 3 1)

/-- Doluo's answer to a write, in the queue of its own frames (13_evien.md R317). -/
def Blk.answered (b : Blk) (node k : Nat) : Blk := b.reply node 0x82 0 (k / 256) (k % 256) []

/-! ### When nothing waits -/

/-- An SE-M operation that the merge unit holds has something left: an end that is still open, a write, or a row not done; its number is
not the next operation's. -/
abbrev Blk.SemsOpen (b : Blk) : Prop :=
  ∀ m ∈ b.sems, m.op ≠ b.opNo ∧ ∀ o, b.op? m.op = some o → o.d.opc = 0x32 ∨ m.closedAll = false ∨ (∃ w ∈ b.writes, w.op = m.op) ∨ (∃ r ∈ m.rows, r.done = false)

/-- The service thread has no row transfer to start or to abort, no save or restore to take or to carry on, no SE-M operation to
complete, and no forced drain to end; no failed conversion stage has been used, and no save
waits for the tile status table. -/
abbrev Blk.Settled (b : Blk) : Prop :=
  (b.sr.phase ≠ 0 ∨ ∀ o ∈ b.ops, o.d.opc ≠ 0x60 ∧ o.d.opc ≠ 0x61)
  ∧ (∀ x ∈ b.xfers, x.aborting = none ∨ x.abortSent = true ∨ x.orphan = true)
  ∧ (∀ o ∈ b.ops, (o.d.opc = 0x10 ∨ o.d.opc = 0x11 ∨ o.role = .image) → ∃ x ∈ b.xfers, x.op = o.id)
  ∧ b.srNextPart = none ∧ b.SemsOpen ∧ b.pins.drainForced = false ∧ b.flt.convUsed = false ∧ b.sr.tables = false

/-- No hold cause stands and `HOLD_OUT` is low (02_tick.md R42). -/
abbrev Blk.Unheld (b : Blk) : Prop :=
  b.sched.waiting = [] ∧ b.sched.lagging = [] ∧ b.heldCfg = [] ∧ (∀ x ∈ b.xfers, x.slackHold = false) ∧ b.refused = none
    ∧ b.tick.holdOut = none

/-- Nothing waits: no service work, no hold cause, no access of the service matrix. -/
abbrev Blk.Calm (b : Blk) : Prop := b.Settled ∧ b.Unheld ∧ b.mx.waits = [] ∧ b.flt.trWait = []

/-- A boundary acts now, of a tick that no overflow is left of, and Doluo is not draining. -/
abbrev Blk.AtBoundary (b : Blk) : Prop :=
  b.Calm ∧ b.moving = true ∧ b.boundaryWaits = false ∧ b.lc ≠ .draining ∧ b.replayQ = []

/-- Requests are answered at once: the bridge serves, no request waits in it, and nothing that is under way at the matrix holds the
access that a request makes (13_evien.md R318). -/
abbrev Blk.RingIdle (b : Blk) : Prop :=
  b.ringUp = true ∧ b.ring.queue = [] ∧ b.ring.now = false ∧ b.mx.locks = [] ∧ b.mx.waits = [] ∧ b.flt.trWait = []

/-- Requests are answered at once, and the boot is over. -/
abbrev Blk.Serving (b : Blk) : Prop := b.RingIdle ∧ b.lc ≠ .boot

/-- The event entered last, with its `FAULT_OUT` bit (14_dictionary.md R340; 01_boundary.md R19). -/
abbrev Blk.Entered (b : Blk) (code cls unit : Nat) : Prop := b.newest = (code, cls, unit) ∧ bit b.flt.out cls = true

/-- From `b` to `c` every operation in flight has ended: no operation, transfer, buffered beat, bus, requester, merge or replay is left, and of
the row writes only those of the service window (15_states_power.md R355). -/
abbrev Blk.Stopped (b c : Blk) : Prop :=
  c.ops = [] ∧ c.xfers = [] ∧ c.outs = [] ∧ c.buses = [] ∧ c.reqs = [] ∧ c.sems = [] ∧ c.gather = [] ∧ c.gStaged = [] ∧ c.replayQ = []
    ∧ c.replayNow = none ∧ c.heldCfg = [] ∧ c.refused = none ∧ c.sched.queue = [] ∧ c.tick.holdOut = none
    ∧ c.writes = b.writes.filter (fun w => w.kind == .sv)

/-- The matrix without the access of the save engine, which ends with its save or restore. -/
def Blk.engineGone (b : Blk) : Matrix :=
  if b.sr.phase = 0 then b.mx else { b.mx with waits := b.mx.waits.filter (fun w => !w.engine) }

/-- A command that changes nothing but the block leaves it as `b`. -/
abbrev State.becomes (s : State) (b : Blk) : Host.Outcome State Fault Refusal := .next { s with blk := b }

/-- Half group `h` (04_banks.md R111; 14_dictionary.md R342). -/
abbrev Blk.halfGroup (b : Blk) (h : Nat) : Nat := bits (b.reg K.HALF_GROUPS) (8 * h + 7) (8 * h)

/-- Neither the memories nor the queue of commands differ. -/
abbrev State.SameMemory (s t : State) : Prop := t.mem = s.mem ∧ t.pending = s.pending

/-- From `b` to `c` one sync miss has been taken, with tick unit `u` but for its free running (02_tick.md R39). -/
def MissTaken (b c : Blk) (u : TickUnit) : Prop :=
  let lost := b.tick.missRun + 1 = b.cfg K.SYNC_MISS_LIMIT
  Only [K.SYNC_MISSES, K.SYNC_STATE] []
      { b with tick := { u with missRun := b.tick.missRun + 1, freeRun := decide lost || b.tick.freeRun } } c
    ∧ c.reg K.SYNC_MISSES = min (b.reg K.SYNC_MISSES + 1) 0xFFFFFFFF
    ∧ (lost → c.reg K.SYNC_STATE = setBit (setBit (b.reg K.SYNC_STATE) 1 true) 0 false ∧ c.Entered 0x0102 1 255)
    ∧ (¬lost → c.reg K.SYNC_STATE = b.reg K.SYNC_STATE)

/-! ### Rows in the bank arrays (04_banks.md R87, R91) -/

/-- `a` is a byte of the data arrays, of the sideband arrays, or the error mark of a word, of row `r` of slot `s`. -/
def Blk.dataOf (b : Blk) (s r a : Nat) : Prop :=
  ∃ q, q < 4 ∧ 262144 * b.physOf s r q + 256 * b.entryOf s r ≤ a ∧ a < 262144 * b.physOf s r q + 256 * b.entryOf s r + 256
def Blk.sideOf (b : Blk) (s r a : Nat) : Prop :=
  ∃ q, q < 4 ∧ 32768 * b.physOf s r q + 32 * b.entryOf s r ≤ a ∧ a < 32768 * b.physOf s r q + 32 * b.entryOf s r + 32
def Blk.markOf (b : Blk) (s r a : Nat) : Prop :=
  ∃ q, q < 4 ∧ (32768 * b.physOf s r q + 32 * b.entryOf s r ≤ a ∧ a < 32768 * b.physOf s r q + 32 * b.entryOf s r + 32
    ∨ 2097152 + 4096 * b.physOf s r q + 4 * b.entryOf s r ≤ a ∧ a < 2097152 + 4096 * b.physOf s r q + 4 * b.entryOf s r + 4)

/-- From `st` to `st'` no byte of any memory changes but of the listed rows, and of the value in the record of `ECC_INJECT`, which a write
that injects an error disarms (R109; 14_dictionary.md R334). -/
structure RowsOnly (b : Blk) (rows : List (Nat × Nat)) (st st' : Store) : Prop where
  data  : ∀ a, (∀ x ∈ rows, ¬ b.dataOf x.1 x.2 a) → Tab.get zeroByte st'.data a = Tab.get zeroByte st.data a
  side  : ∀ a, (∀ x ∈ rows, ¬ b.sideOf x.1 x.2 a) → Tab.get zeroByte st'.side a = Tab.get zeroByte st.side a
  marks : ∀ a, (∀ x ∈ rows, ¬ b.markOf x.1 x.2 a) → Tab.get zeroByte st'.marks a = Tab.get zeroByte st.marks a
  rest  : st'.prog = st.prog ∧ st'.dram = st.dram
  dict  : ∀ a, ¬(Config.recordFirst K.ECC_INJECT + 8 ≤ a ∧ a < Config.recordFirst K.ECC_INJECT + 12) →
    Tab.get zeroByte st'.dict a = Tab.get zeroByte st.dict a

/-- Payload byte `i`, and sideband byte `i`, of row `r` of slot `s` as stored. -/
def Store.rowByte (st : Store) (b : Blk) (s r i : Nat) : Byte :=
  Tab.get zeroByte st.data (262144 * b.physOf s r (i / 256) + 256 * b.entryOf s r + i % 256)
def Store.sbByte (st : Store) (b : Blk) (s r i : Nat) : Byte :=
  Tab.get zeroByte st.side (32768 * b.physOf s r (i / 32) + 32 * b.entryOf s r + i % 32)

/-- The four quarters of the row lie in four physical banks (04_banks.md R89). -/
abbrev Blk.fourBanks (b : Blk) (s r : Nat) : Prop := ∀ q, q < 4 → ∀ p, p < 4 → b.physOf s r q = b.physOf s r p → q = p

/-- A beat whose enabled quarters are `qs`, with good parity on what is taken and a good stamp, that is not poisoned. -/
abbrev Blk.GoodBeat (b : Blk) (bt : Beat) (qs : List Nat) : Prop :=
  b.badStamp bt.stamp = false ∧ stampBad bt = false ∧ sbBad bt = false ∧ badQuarters bt qs = []
    ∧ (∀ q, q < 4 → (bt.qen.getLsbD q = true ↔ q ∈ qs)) ∧ (∀ q ∈ qs, q < 4) ∧ sbPoison bt.sb = false

/-- `EP_FAULT_LAST` of a fault (05_ports.md R136). -/
def epFaultRecord (stamp : Stamp) (endpt port kind qen : Nat) : List Byte :=
  leBytes 8 stamp.toNat ++ [BitVec.ofNat 8 endpt, BitVec.ofNat 8 port, BitVec.ofNat 8 kind, BitVec.ofNat 8 qen, 0, 0, 0, 0]

/-- A stored sideband (03_tile_registers.md R66): scales, stamp, tag, epoch, flags, scale slot, and reserved bytes that are zero. -/
abbrev StoredSideband (sb scales : List Byte) (stamp : Stamp) (tag epoch sslot : Nat) (flags : Byte) : Prop :=
  (∀ i, i < 64 → byteAt sb i = byteAt scales i) ∧ fieldAt sb 64 8 = stamp.toNat ∧ fieldAt sb 72 4 = tag ∧ fieldAt sb 76 4 = 0
    ∧ fieldAt sb 80 2 = epoch ∧ byteAt sb 82 = flags ∧ fieldAt sb 83 2 = sslot ∧ ∀ i, 85 ≤ i → byteAt sb i = 0

/-! ### Records of the dictionary store (14_dictionary.md R334; 12_service_matrix.md R308) -/

/-- The record of entry `k`, of `n` bytes, holds `v` and is committed. -/
def Store.withRecord (st : Store) (k n v : Nat) : Store :=
  { st with dict := Mem.write st.dict (Config.recordFirst k) (leBytes 2 (k / 256) ++ [BitVec.ofNat 8 (k % 256), 1] ++ leBytes 4 n
      ++ padTo (leBytes n v) (roundUp n 8)) }
def Blk.commitRecord (b : Blk) (k : Nat) : Blk :=
  { b with mx := { b.mx with
      uncommitted := b.mx.uncommitted.filter (fun j => j != k), fills := b.mx.fills.filter (fun f => f.1 != 4096 + k) } }

/-- What the ring sees of an access of master `m` that is answered with an error: the bridge answers its request with an abort code. -/
def Blk.bridgeFails (b : Blk) (m : Nat) : Blk := if m = 2 then b.ringFail 0x00040002 else b

/-! ### Issue (11_sequencer.md R269, R270; 02_tick.md R42, R44) -/

/-- Index of a descriptor that issues now, and the block once the schedule thread has passed it. -/
def Blk.issueIdx (st : Store) (b : Blk) (d : Desc) : Nat := (b.placeOf st d).getD noIdx
def Blk.passed (st : Store) (b : Blk) (d : Desc) : Blk :=
  match b.placeOf st d with | some i => b.pass i (isScheduled d) | none => b

/-- Ticks run unheld and not in Draining, no `TEND` has ended this one's issue, and a scheduled descriptor meets no late hold: it is in the issue queue and
reads no row that would hold. -/
abbrev Blk.Issues (st : Store) (b : Blk) (d : Desc) : Prop :=
  b.issuing = true ∧ (isScheduled d = true →
    (∀ i, b.placeOf st d = some i → i < b.sched.next + b.sched.queue.length)
    ∧ (b.passed st d).missing st (b.issueIdx st d) d = false)

/-- The stamp of the next cycle: one logical cycle on, while the counter is not frozen, up to the last one of the tick (02_tick.md R49). -/
def Blk.nextStamp (b : Blk) : Stamp :=
  mkStamp b.tick.tick (if b.moving then min (b.tick.lcyc + 1) (b.cfg K.TICK_LEN - 1) else b.tick.lcyc) 0

/-- A tile to which a write issues (03_tile_registers.md R71). -/
def Tile.issued (t : Tile) (clear : BitVec 64) (commit : Bool) (stamp : Stamp) : Tile :=
  { t with writers := t.writers + 1, abandoned := false, state := .loading, rowValid := t.rowValid &&& ~~~clear,
           unrecomp := t.unrecomp && !commit, lastStamp := if t.state = .loading then t.lastStamp else stamp }

/-- A tile as the `TCFG` `d` configures it (R71); `PINNED`, `DEAD_READ` and `MACE_DISC` stay. `n` cancels of this cycle raise the epoch that
it gives (R82). -/
def Tile.configured (t : Tile) (d : Desc) (stamp : Stamp) (n : Nat) : Tile :=
  { t with state := .empty, inUse := true, rowValid := 0, shape := d.shape, scaleSlot := d.scaleSlot, epoch := (d.epoch + n) % 65536,
           zread := d.opf, startRow := 0, writers := 0, abandoned := false, unrecomp := false, scrubPend := false, gen := nextGen false t.gen,
           lastStamp := if t.state = .empty then t.lastStamp else stamp }

/-- `x` is the one transfer numbered `tn`, live, of the row operation `o`, whose tile has kept its configuration. -/
abbrev Blk.Carries (b : Blk) (tn : Nat) (x : Xfer) (o : Op) : Prop :=
  b.xfers.filter (fun y => y.tn == tn) = [x] ∧ x.orphan = false ∧ b.op? x.op = some o ∧ (o.d.opc = 0x10 ∨ o.d.opc = 0x11)
    ∧ o.role = .main ∧ (∀ y ∈ b.xfers, y.op = o.id → y.tn = tn) ∧ x.store = (o.d.opc == 0x11) ∧ o.total = o.d.nrows ∧ (x.store = true → o.srcGen = (b.tile o.d.slot).gen)
    ∧ (x.store = false → o.dests = [(o.d.slot, (b.tile o.d.slot).gen)])

/-- In the next round of `port` the transfer `c` is the one candidate: it is not overdue, or has been counted so, it needs no unit that is not Active, and nothing
has taken its quarter positions, its bus or its groups (06_sumac.md R140 to R143). -/
abbrev Blk.AloneOn (st : Store) (b : Blk) (port : Nat) (offers : List Offer) (c : Cand) : Prop :=
  let b0 := b.openRound port offers
  let as := schedAccs st b
  b.roundOpen port = true ∧ (openQuarters b as port).isEmpty = false
    ∧ (List.range 16).filterMap (fun i => candOf b0 as port i offers) = [c] ∧ c.units.all b0.active = true
    ∧ c.qs.all (fun q => (openQuarters b as port).contains q) = true ∧ c.clashes b0 as = false
    ∧ (b0.overdue port c.id = false ∨ (b0.requester port c.id).missed = true)

/-- The open `TFEED` `o` heads its queue on `port`, and its next row lies in the banks, with every unit that it needs Active. -/
abbrev Blk.Feeds (b : Blk) (port : Nat) (o : Op) : Prop :=
  let row := accessRow o.d o.srcShape o.n
  b.op? o.id = some o ∧ o.role = .main ∧ o.opn = true ∧ o.d.opc = 0x20 ∧ o.d.port = port ∧ o.taken = false ∧ o.d.req < 14
    ∧ o.d.endpt ≠ 3 ∧ o.d.endpt ≠ 15 ∧ b.epOut o.d.endpt = false ∧ o.releasedAt ≤ b.tick.wall ∧ o.srcShape = (b.seenTile o.d.slot).shape
    ∧ shapeOk o.srcShape = true ∧ (b.requester port o.d.req).queue.head? = some o.id ∧ (b.requester port o.d.req).cut = false
    ∧ b.rowRead o.d.slot row = .stored ∧ b.active port = true ∧ b.active (8 + b.groupOf o.d.slot row) = true

/-- A round of a read port begins that no schedule and no other access disturbs, in which only the requesters `ids` have operations. -/
abbrev Blk.QuietRound (b : Blk) (port : Nat) (ids : List Nat) : Prop :=
  b.Calm ∧ b.moving = true ∧ b.inGuard = false ∧ b.inExt = false ∧ port < 4 ∧ b.fenced port = false ∧ b.sched.on = false ∧ b.outs = []
    ∧ b.fixed = [] ∧ b.withdrawn = [] ∧ b.flt.firsts = [] ∧ ∀ i, i < 16 → i ∉ ids → (b.requester port i).queue = []

/-- Requester `i` ranks before `j`: an overdue one before one that is not, then the lower effective deadline, then the lower number
(06_sumac.md R142). -/
def Blk.RanksBefore (b : Blk) (port i j : Nat) : Prop :=
  let eff (k : Nat) : Nat := b.biased port k - (b.requester port k).aging * b.cfg K.AGE_STEP
  (b.overdue port i = true ∧ b.overdue port j = false)
    ∨ (b.overdue port i = b.overdue port j ∧ (eff i < eff j ∨ eff i = eff j ∧ i < j))

/-- An `SE-M` beat of kind `kind` reaches the active operation `o`, which the merge unit holds as `m`; a data beat's take `c` is granted
now: no ready root write goes first, nothing owns its quarter positions, its bus or the group it writes, and `WRB` is Active
(08_route_merge.md R177, R178, R180). -/
abbrev Blk.SemBeat (b : Blk) (bt : Beat) (kind : Nat) (o : Op) (m : SemOp) : Prop :=
  b.ticking = true ∧ b.busLow 4 = false ∧ b.fenced 5 = false ∧ b.semTarget bt = some (o, m) ∧ (byteAt bt.sb 96).toNat = kind
    ∧ b.sems.find? (fun x => x.op == o.id) = some m
abbrev Blk.SemData (st : Store) (b : Blk) (bt : Beat) (kind : Nat) (o : Op) (m : SemOp) (c : Cand) : Prop :=
  b.SemBeat bt kind o m ∧ semOffer b o m bt = some c ∧ m.readyRows b.tick.wall = [] ∧ b.semOpen o m = true ∧ b.Calm
    ∧ b.AloneOn st 5 [{ endpt := 4, beat := bt }] c

/-- The round of `WRB` in which an offered `SE-M` beat is taken has begun. -/
abbrev Blk.semRound (b : Blk) (bt : Beat) : Blk := b.openRound 5 [{ endpt := 4, beat := bt }]

/-- The round of a port has begun, where Sumac may grant on it at all. -/
def Blk.roundBegun (st : Store) (b : Blk) (port : Nat) (offers : List Offer) : Blk :=
  if b.roundOpen port && !(openQuarters b (schedAccs st b) port).isEmpty then b.openRound port offers else b

/-- No requester of the port has a candidate. -/
abbrev Blk.NoneOn (st : Store) (b : Blk) (port : Nat) (offers : List Offer) : Prop :=
  (List.range 16).filterMap (fun i => candOf (b.openRound port offers) (schedAccs st b) port i offers) = []

/-- The block as it would be with no contribution refused. -/
def Blk.unrefused (b : Blk) : Blk := { b with refused := none, tick := { b.tick with holdOut := none } }

/-- Every released SE-M operation is active, so that the end of one activates none. -/
abbrev Blk.AllActive (b : Blk) : Prop :=
  ∀ m ∈ b.sems, m.live = true

/-- Nothing is in flight that a change of a slot touches: no merge operation, no row transfer, no pending overflow. -/
abbrev Blk.Untangled (b : Blk) : Prop := b.sems = [] ∧ b.xfers = [] ∧ ∀ o ∈ b.ops, o.pendingOvf = none

/-- The same, but for transfers of the save engine's image, which name no slot. -/
abbrev Blk.OnlyImage (b : Blk) : Prop := b.sems = [] ∧ (∀ o ∈ b.ops, o.pendingOvf = none)
  ∧ ∀ x ∈ b.xfers, ∃ o, b.op? x.op = some o ∧ o.role = .image ∧ o.d.slot = 255

/-- No transfer of the save engine's image is left. -/
def Blk.withoutImage (b : Blk) : Blk :=
  let own (id : Nat) : Bool := b.ops.any (fun o => o.id == id && o.role == .image)
  { b with
    ops := b.ops.filter (fun o => o.role != .image), xfers := b.xfers.filter (fun x => !own x.op), outs := b.outs.filter (fun x => !own x.op) }

/-! ### Lifecycle -/

/-- The transitions of 15_states_power.md R353, from and to, without the state itself. -/
def lcEdges : List (LC × LC) :=
  [(.off, .boot), (.boot, .off), (.configured, .off), (.armed, .off), (.running, .off), (.holding, .off), (.draining, .off),
   (.safe, .off), (.configured, .boot), (.armed, .boot), (.running, .boot), (.holding, .boot), (.draining, .boot), (.safe, .boot),
   (.boot, .configured), (.configured, .armed), (.armed, .configured), (.armed, .running), (.running, .holding),
   (.holding, .running), (.running, .draining), (.holding, .draining), (.draining, .configured), (.configured, .safe),
   (.armed, .safe), (.running, .safe), (.holding, .safe), (.draining, .safe)]

/-- The state `Off` as a cold reset or a loss of the control rail leaves it: every field at its reset value, but for the levels that
others drive on input pins and for the model's counter of free values. -/
def State.cold (s : State) (coldLow : Bool) : State :=
  { mem := {}, pending := s.pending,
    blk := { fresh := s.blk.fresh, tick := { holdIn := s.blk.tick.holdIn }, pwr := { ack := s.blk.pwr.ack },
             pins := { coldLow := coldLow, warmLow := s.blk.pins.warmLow, ringLow := s.blk.pins.ringLow },
             wrapper := { s.blk.wrapper with wso := false } } }

/-- From `b` to `c` Doluo has entered Safe for the cause `code`: every operation in flight has ended, a save or restore with status 7, and
ticks have stopped (15_states_power.md R353, R355). -/
abbrev Blk.InSafe (b c : Blk) (code : Nat) : Prop :=
  c.lc = .safe ∧ c.reg K.SAFE_CAUSE = code ∧ b.Stopped c ∧ c.sr.phase = 0 ∧ (b.sr.phase ≠ 0 → c.reg K.SR_STATUS = 7)
    ∧ c.reg K.SYNC_STATE = setBit (b.reg K.SYNC_STATE) 2 false ∧ c.pins.stopPend = 0

/-- The events that take the cell out, with their codes (16_faults.md R380; 11_sequencer.md R285). -/
def cellOutCode : Instr → Option Nat
  | .tickUnitMismatch => some 0x0B01
  | .conversionMismatch _ => some 0x0B02
  | .railLost => some 0x0B03
  | .matrixParityError _ => some 0x0904
  | .bridgeSendCrcMismatch => some 0x0A01
  | .seqRamUncorrectable _ => some 0x0807
  | .watchdogExpiry => some 0x0808
  | _ => none

/-- The value of a finite FP32 code, in units of 2^-149, the least subnormal; none for infinities and NaNs (09_numerics.md R212). -/
def fp32Units (c : Nat) : Option Int :=
  match decodeElem 0 c with
  | .fin n m e => some ((if n then -1 else 1) * ((m * 2 ^ (e + 149).toNat : Nat) : Int))
  | _ => none

/-- A finite value in units of 2^-k, where it is a whole number of them by its own exponent. -/
def Num.units (x : Num) (k : Int) : Option Int :=
  match x with
  | .fin n m e => if 0 ≤ e + k then some ((if n then -1 else 1) * ((m * 2 ^ (e + k).toNat : Nat) : Int)) else none
  | _ => none

/-- The least and the largest finite value that a conversion writes in a format, in units of the format's grid there, and the exponent of
that grid (09_numerics.md R212, R214). -/
def fmtLimits (f : Nat) : Int × Int × Int :=
  match f with
  | 0 => (-(2 ^ 24 - 1), 2 ^ 24 - 1, 104)
  | 1 => (-2047, 2047, 5)
  | 2 => (-255, 255, 120)
  | 3 => (-14, 14, 5)
  | 4 => (-7, 7, 13)
  | 5 => (-14, 14, 5)
  | 6 => (-7, 7, 13)
  | 7 => (-7, 7, 2)
  | 8 => (-15, 15, -1)
  | 9 => (-3, 3, 1)
  | 10 => (-127, 127, -6)
  | 11 => (-128, 127, 0)
  | _ => (-(2 ^ 31), 2 ^ 31 - 1, 0)

end Sys2Proof.Machine
end

