-- ==== Sys2Proof/Certificates/Slice0/Obligations.lean ====
section
/-! DEFINITION. The statements about the model, for the provers. Each docstring names the rules of the spec that it formalises, and
the log entries of the choices of the model that it rests on. Every statement about a command rests on entries 9 (the order of the
events of one command), 10 (a command takes no wall time) and 19 (the command of an event says that its moment has come). -/

open Sys2Proof Sys2Proof.Machine

/-! ### The step, reset, the memories, the lifecycle -/

/-- A step takes the command at the front of the queue and runs it on the state with the queue's rest. The model's choice: log entry 56
(the queue). -/
def Obligations.StepRunsFrontCommand : Prop :=
  ∀ (c : Instr) (q : List Instr) (s : State), step { s with pending := c :: q } = exec c { s with pending := q }

/-- Every command answers a next state and leaves the queue alone. -/
def Obligations.EveryCommandAnswersAndKeepsQueue : Prop :=
  ∀ (c : Instr) (s : State), ∃ t, exec c s = .next t ∧ t.pending = s.pending

/-- On an empty queue the block stands still in Off (15_states_power.md R352). On an empty queue with no event due, nothing in flight and
the buses driven, one wall cycle passes while no tick runs: tick and lifecycle stay (02_tick.md R30). The model's choice: log entry 22. -/
def Obligations.EmptyQueueIdlesOrCountsACycle : Prop :=
  (∀ s : State, s.pending = [] → (s.blk.lc = .off ∨ s.blk.pins.coldLow = true) → step s = .next s)
  ∧ (∀ s : State, s.pending = [] → s.blk.lc = .boot ∨ s.blk.lc = .configured ∨ s.blk.lc = .safe → s.blk.pins.coldLow = false →
      s.blk.dueFirst s.mem = none → s.blk.dueThen s.mem = none → s.blk.ringDue = false → firstDue (dueService s.blk) = none →
      dueRound s.mem s.blk = none → s.blk.mx.waits = [] → s.blk.flt.trWait = [] → s.blk.flt.convUsed = false →
      s.blk.droveAt = s.blk.tick.wall + 1 → s.blk.writes = [] → s.blk.ops = [] → s.blk.outs = [] → s.blk.flt.today = [] →
      s.blk.scrubDue = none → s.blk.sr.phase = 0 →
      ∃ t, step s = .next t ∧ t.mem = s.mem ∧ t.pending = [] ∧ t.blk.tick.wall = s.blk.tick.wall + 1
        ∧ t.blk.tick.tick = s.blk.tick.tick ∧ t.blk.tick.lcyc = s.blk.tick.lcyc ∧ t.blk.lc = s.blk.lc ∧ t.blk.regs = s.blk.regs
        ∧ t.blk.recs = s.blk.recs ∧ t.blk.tiles = s.blk.tiles ∧ t.blk.anise = s.blk.anise ∧ t.blk.clove = s.blk.clove)

/-- After reset the block is in Off with `COLD_RST_N` low, every entry reads its Reset or Default column, no record and no tile is set,
every byte of the bank arrays, their error marks, program RAM, data RAM and the dictionary store is 0, every Anise slot is as a power-on
leaves it and every Clove counter 0, and no command waits (15_states_power.md R356, 14_dictionary.md R334). The model's choice: log
entries 3 to 7. -/
def Obligations.ResetIsOffWithDefaults : Prop :=
  State.reset.blk.lc = .off ∧ State.reset.blk.pins.coldLow = true ∧ State.reset.pending = []
    ∧ (∀ k, State.reset.blk.reg k = regDefault k ∧ State.reset.blk.cfg k = regDefault k ∧ State.reset.blk.recAt k = [])
    ∧ (∀ p, State.reset.blk.tile p = {}) ∧ (∀ n, State.reset.blk.aniseSlot n = aniseDefault n ∧ State.reset.blk.cloveSlot n = List.replicate 16 0)
    ∧ (∀ m ∈ [State.reset.mem.data, State.reset.mem.side, State.reset.mem.marks, State.reset.mem.prog, State.reset.mem.dram,
        State.reset.mem.dict], ∀ a n, Mem.read m a n = List.replicate n 0)
    ∧ State.reset.blk.flt.out = 0 ∧ State.reset.blk.ring.emcy = []

/-- The byte memories are in their canonical form after reset. The model's choice: log entry 3. -/
def Obligations.ResetMemoriesCanonical : Prop :=
  State.reset.mem.canonical

/-- Every step keeps the byte memories in their canonical form. The model's choice: log entry 3. -/
def Obligations.StepKeepsMemoriesCanonical : Prop :=
  ∀ s t : State, s.mem.canonical → step s = .next t → t.mem.canonical

/-- The lifecycle state changes only along the transitions of 15_states_power.md R353, in every step. -/
def Obligations.LifecycleFollowsItsTable : Prop :=
  ∀ s t : State, step s = .next t → t.blk.lc = s.blk.lc ∨ (s.blk.lc, t.blk.lc) ∈ lcEdges

/-! ### Resets and boot -/

/-- A cold reset of at least 16 cycles, and a loss of the control rail, put the whole block into Off at its reset values (01_boundary.md
R14, 15_states_power.md R352, R356). A reset held for fewer than 16 cycles has its full effect or none, as a free value chooses
(01_boundary.md R14). The model's choice: log entries 2 to 7. -/
def Obligations.ColdAndShortResets : Prop :=
  (∀ s : State, (∀ n, 16 ≤ n → exec (.coldReset n) s = .next (s.cold true))
      ∧ exec .controlRailLoss s = .next (s.cold s.blk.pins.coldLow))
  ∧ (∀ (s : State) (n : Nat) (c : Nat → Instr), n < 16 → (c = .coldReset ∨ c = .warmReset ∨ c = .ringReset) →
      exec (c n) s = if Config.freeValue s.blk.fresh % 2 = 1 then exec (c 16) { s with blk := s.blk.takeFree }
        else .next { s with blk := s.blk.takeFree })

/-- The release of `COLD_RST_N` starts the boot ROM: with a wrong ROM checksum it stops at step 1 with `BOOT_STATUS` 0x86; else data RAM
and, with the rail at full level, the unmapped spare banks are cleared, the bridge starts, and the boot waits at step 3; a low
`WARM_RST_N` holds it before step 1 (15_states_power.md R353, 11_sequencer.md R278). The release of `WARM_RST_N` runs the boot through its
checks: a failing firmware image stops it at step 3 with the failure code in `BOOT_STATUS` and event 0x0804; sound ones lead to the remap
(11_sequencer.md R278). The model's choice: log entry 42. -/
def Obligations.ReleasesStartBoot : Prop :=
  (∀ s : State, s.blk.pins.coldLow = true →
      (s.blk.pins.warmLow = true → ∀ ok, exec (.coldResetRelease ok) s =
        .next { s with blk := { s.blk with lc := .boot, pins := { s.blk.pins with coldLow := false } } })
      ∧ (s.blk.pins.warmLow = false →
        (∃ t, exec (.coldResetRelease false) s = .next t ∧ t.mem = s.mem ∧ t.pending = s.pending
          ∧ t.blk.reg K.BOOT_STATUS = 0x86 ∧ t.blk.newest = (0x0806, 3, 255) ∧ bit t.blk.flt.out 3 = true
          ∧ Only [K.BOOT_STATUS] [] { s.blk with
              lc := .boot, pins := { s.blk.pins with coldLow := false, romFailed := true, bootPhase := 0, bootStep := 1 } } t.blk)
        ∧ (∃ t, exec (.coldResetRelease true) s = .next t
          ∧ t.mem = { (if s.blk.railFull then clearSpares s.blk s.mem else s.mem) with dram := [] } ∧ t.pending = s.pending
          ∧ t.blk.reg K.BOOT_STATUS = 0
          ∧ Only [K.BOOT_STATUS] [] { s.blk with
              lc := .boot,
              pins :=
                { s.blk.pins with
                  coldLow := false, romFailed := false, seqHeld := false, bootPhase := 1, bootStep := 3, bridgeOn := true },
              pwr := { s.blk.pwr with spareDue := s.blk.pwr.spareDue || !s.blk.railFull },
              ring := { s.blk.ring with beatDue := s.blk.rw K.HEARTBEAT_TICKS != 0, hbCount := 0, hbWall := 0 } } t.blk)))
  ∧ (∀ s : State, s.blk.pins.warmLow = true → s.blk.lc = .boot → s.blk.pins.coldLow = false →
      ∃ t, exec (.warmResetRelease true) s = .next t
        ∧ t.mem = { (if s.blk.railFull then clearSpares s.blk s.mem else s.mem) with dram := [] } ∧ t.pending = s.pending
        ∧ (∀ c, fwFail s.mem = some c → t.blk.reg K.BOOT_STATUS = c ∧ t.blk.newest = (0x0804, 1, c % 256)
            ∧ t.blk.pins.bootStep = 3 ∧ t.blk.pins.bootPhase = 1)
        ∧ (fwFail s.mem = none → t.blk.reg K.BOOT_STATUS = (if s.blk.pins.remapDone then 2 else 1) ∧ t.blk.pins.bootStep = 7
            ∧ t.blk.pins.bootPhase = 2
            ∧ t.blk.pins.remap = true)
        ∧ t.blk.lc = .boot ∧ t.blk.pins.seqHeld = false ∧ t.blk.pins.warmLow = false ∧ t.blk.tiles = s.blk.tiles
        ∧ t.blk.anise = s.blk.anise ∧ t.blk.clove = s.blk.clove)

/-- `WARM_RST_N` low for at least 16 cycles, in any state but Off, leads to Boot with the sequencer held: every operation in flight ends,
`WRITERS` of every tile returns to 0, `HIST` of every Anise slot takes its reset value and its other fields are kept, and the memories,
the tiles and the dictionary stay but for the ends of a save, a built-in test, a validation and a wait for the first tick
(15_states_power.md R353, R356; 09_numerics.md R226, R237). `RING_RST_N` low for at least 16 cycles empties the bridge, ends its open
transfer and drops the requests that wait in it; its release, and a reset of the wrapper, leave the rest running (01_boundary.md R14, R22,
15_states_power.md R356). The model's choice: log entries 27, 39, 43 and 93. -/
def Obligations.WarmRingAndWrapperResets : Prop :=
  (∀ (s : State) (n : Nat), 16 ≤ n → s.blk.lc ≠ .off → s.blk.flt.retiring = [] → s.blk.mx.waits = [] → s.blk.mx.locks = [] →
      s.blk.mx.freed = [] →
      ∃ t, exec (.warmReset n) s = .next t ∧ t.mem = s.mem ∧ t.pending = s.pending ∧ t.blk.sr.phase = 0 ∧ s.blk.Stopped t.blk
        ∧ (s.blk.sr.phase ≠ 0 → t.blk.reg K.SR_STATUS = 7) ∧ (s.blk.pins.bist ≠ 0 → t.blk.reg K.BIST_STATUS = 3)
        ∧ (s.blk.reg K.IMAGE_STATE = 1 → t.blk.reg K.IMAGE_STATE = 0)
        ∧ (s.blk.reg K.IMAGE_STATE ≠ 1 → t.blk.reg K.IMAGE_STATE = s.blk.reg K.IMAGE_STATE)
        ∧ t.blk.reg K.SYNC_STATE = setBit (s.blk.reg K.SYNC_STATE) 2 false
        ∧ (Tab.wf aniseDefault s.blk.anise → ∀ n, t.blk.aniseSlot n =
            if s.blk.anise.any (fun c => c.1 == n) then aniseWarm (s.blk.aniseNow.any (fun x => x.slot == n)) (s.blk.aniseSlot n) else s.blk.aniseSlot n)
        ∧ Only [K.SR_STATUS, K.BIST_STATUS, K.IMAGE_STATE, K.SYNC_STATE] [K.CMD_LAST] { s.blk.stopAll with
            lc := .boot, sems := [], sr := t.blk.sr, anise := s.blk.warmAnise.anise, aniseNow := s.blk.warmAnise.aniseNow,
            tiles := s.blk.tiles.map (fun x => (x.1, { x.2 with writers := 0 })),
            mx := { s.blk.mx with remapWait := false }, wrapper := { s.blk.wrapper with wso := false },
            pins :=
              { coldLow := s.blk.pins.coldLow, warmLow := true, ringLow := s.blk.pins.ringLow, seqHeld := true,
                romFailed := s.blk.pins.romFailed, bridgeOn := s.blk.pins.bridgeOn } } t.blk)
  ∧ (∀ s : State, s.blk.mx.waits = [] → s.blk.mx.locks = [] → s.blk.mx.freed = [] → s.blk.flt.trWait = [] →
      (∀ n, 16 ≤ n → exec (.ringReset n) s = .next { s with blk := { s.blk with
        pins := { s.blk.pins with ringLow := true },
        ring := { s.blk.ring with seg := none, emcy := [], answers := [], forward := [], queue := [], now := false } } })
      ∧ exec .ringResetRelease s = .next { s with blk := { s.blk with pins := { s.blk.pins with ringLow := false } } }
      ∧ (s.blk.lc ≠ .off → exec .wrapperReset s = .next { s with blk := { s.blk with mx := { s.blk.mx with wrapperAbort := false } } }))

/-- A write of `MAP_CTRL` with bit 0 set asks once for the remap; the switch makes it, once no access through the zero region is
outstanding that reached the matrix before (11_sequencer.md R274, R275); with it the service firmware runs, which `BOOT_STATUS` reports
(R277, R287). The start of the service firmware ends Boot: Configured, with the versions of both images, the replay index of an image kept
valid, and the runtime started where the interface levels match, else `BOOT_STATUS` 0x87 with event 0x0804 (11_sequencer.md R279 to R281).
The model's choice: log entries 12, 42 and 71. -/
def Obligations.RemapAndServiceFirmware : Prop :=
  (∀ s : State,
      (s.blk.mxHeld 1 = false → ∀ v, exec (.remapWrite v) s =
        s.becomes (if v % 2 = 1 ∧ s.blk.pins.remap = false then
          { s.blk with pins := { s.blk.pins with remap := true }, mx := { s.blk.mx with remapWait := true, remapAt := s.blk.tick.wall } } else s.blk))
      ∧ (s.blk.romOpen = true → exec .remapSwitch s = .next s)
      ∧ (s.blk.mx.remapWait = true → s.blk.mx.waits = [] → s.blk.flt.trWait = [] →
        let b : Blk := { s.blk with pins := { s.blk.pins with remapDone := true }, mx := { s.blk.mx with remapWait := false } }
        exec .remapSwitch s = s.becomes (if s.blk.lc = .boot ∧ s.blk.pins.bootPhase = 2 then b.setReg K.BOOT_STATUS 2 else b)))
  ∧ (∀ s : State, s.blk.lc = .boot → s.blk.pins.bootPhase = 2 → s.blk.pins.warmLow = false → s.blk.mx.waits = [] →
      s.blk.flt.trWait = [] → (s.blk.pwr.waitAck = none ∨ s.blk.pwr.ack = false) →
      let svc := s.mem.fw 0 12 2
      let rt := s.mem.fw 65536 12 2
      let fits := svc / 256 = rt / 256 ∧ rt % 256 ≤ svc % 256
      ∃ t, exec .serviceFirmwareStart s = .next t ∧ t.pending = s.pending
        ∧ t.mem = { (if s.blk.reg K.IMAGE_STATE = 2 then s.mem.buildIndex else s.mem) with dict := t.mem.dict }
        ∧ t.blk.reg K.SVC_VERSION = s.mem.fw 0 8 4 ∧ t.blk.reg K.RT_VERSION = s.mem.fw 65536 8 4
        ∧ (fits → t.blk.reg K.BOOT_STATUS = 3 ∧ t.blk.pins.schedRun = true ∧ bit (t.blk.reg K.ID_FLAGS) 2 = false
          ∧ bit (t.blk.reg K.ID_FLAGS) 3 = false)
        ∧ (¬fits → t.blk.reg K.BOOT_STATUS = 0x87 ∧ t.blk.pins.schedRun = s.blk.pins.schedRun ∧ bit (t.blk.reg K.ID_FLAGS) 2 = true
          ∧ bit (t.blk.reg K.ID_FLAGS) 3 = true ∧ t.blk.reg K.NEG_STATUS = 2 ∧ t.blk.Entered 0x0804 1 0x87)
        ∧ Only [K.SVC_VERSION, K.RT_VERSION, K.ID_FLAGS, K.BOOT_STATUS, K.PLAT_MIN, K.PLAT_MAX, K.NEG_STATUS] [] { s.blk with
            lc := .configured,
            pins := { s.blk.pins with remapDone := true, bootPhase := 0, fwStarted := true, schedRun := t.blk.pins.schedRun },
            mx := { s.blk.mx with remapWait := false, uncommitted := t.blk.mx.uncommitted, fills := t.blk.mx.fills } } t.blk)

/-- `PROG_CTRL` = 1 in Boot runs the checks of the firmware images: a failure waits at step 3 with its code in `BOOT_STATUS` and event
0x0804; sound ones lead to step 7 and the remap, and report whether the pair has been tested (11_sequencer.md R277, R278). `PROG_CTRL` = 2
in Configured leads back to Boot, to wait at step 3, as a warm reset does but with the sequencer running (11_sequencer.md R277;
15_states_power.md R353). The model's choice: log entries 27 and 42. -/
def Obligations.ProgCtrlStartsAndReturns : Prop :=
  (∀ (s : State) (node : Nat), s.blk.Calm → s.blk.RingIdle → s.blk.lc = .boot → s.blk.pins.bootPhase ≠ 2 →
      ∃ t, exec (.progCtrlStart node) s = .next t ∧ s.SameMemory t
        ∧ (∀ c, fwFail s.mem = some c → t.blk.reg K.BOOT_STATUS = c ∧ t.blk.Entered 0x0804 1 (c % 256)
          ∧ Only [K.BOOT_STATUS] [] ({ s.blk with pins := { s.blk.pins with bootPhase := 1, bootStep := 3 } }.answered node K.PROG_CTRL) t.blk)
        ∧ (fwFail s.mem = none → t.blk.reg K.BOOT_STATUS = (if s.blk.pins.remapDone then 2 else 1)
          ∧ t.blk.reg K.NEG_STATUS = (if pairTested (s.mem.fw 0 8 4) (s.mem.fw 65536 8 4) then 0 else 1)
          ∧ bit (t.blk.reg K.ID_FLAGS) 0 = !pairTested (s.mem.fw 0 8 4) (s.mem.fw 65536 8 4)
          ∧ Only [K.BOOT_STATUS, K.ID_FLAGS, K.NEG_STATUS] [] ({ s.blk with
              pins := { s.blk.pins with bootPhase := 2, bootStep := 7, remap := true },
              mx := { s.blk.mx with
                remapWait := s.blk.mx.remapWait || !s.blk.pins.remap,
                remapAt := if s.blk.pins.remap then s.blk.mx.remapAt else s.blk.tick.wall } }.answered node K.PROG_CTRL) t.blk))
  ∧ (∀ (s : State) (node : Nat), s.blk.RingIdle → s.blk.lc = .configured → s.blk.flt.retiring = [] →
      ∃ t, exec (.progCtrlReturn node) s = .next t ∧ s.SameMemory t ∧ t.blk.reg K.BOOT_STATUS = 0 ∧ t.blk.sr.phase = 0 ∧ s.blk.Stopped t.blk
        ∧ (s.blk.sr.phase ≠ 0 → t.blk.reg K.SR_STATUS = 7)
        ∧ t.blk.reg K.SYNC_STATE = setBit (s.blk.reg K.SYNC_STATE) 2 false
        ∧ Only [K.BOOT_STATUS, K.SR_STATUS, K.BIST_STATUS, K.IMAGE_STATE, K.SYNC_STATE] [K.CMD_LAST] ({ s.blk.stopAll with
            lc := .boot, sems := [], sr := t.blk.sr, tiles := s.blk.tiles.map (fun x : Nat × Tile => (x.1, { x.2 with writers := 0 })),
            pins :=
              { coldLow := s.blk.pins.coldLow, warmLow := s.blk.pins.warmLow, ringLow := s.blk.pins.ringLow,
                seqHeld := s.blk.pins.seqHeld, romFailed := s.blk.pins.romFailed, remap := s.blk.pins.remap,
                remapDone := s.blk.pins.remapDone, bootPhase := 1, bootStep := 3, bridgeOn := s.blk.pins.bridgeOn } }.answered
            node K.PROG_CTRL) t.blk)

/-! ### The tick unit -/

/-- `RUN` waits for its first tick; in follow mode it drives a start pulse; without an accepted pulse it is abandoned with event 0x0103
(02_tick.md R35; 01_boundary.md R17). The first tick begins: Running, with tick number `TICK_START`, at logical cycle 0 of program 0; in
follow mode with the first accepted pulse, whose start pulse stands for `TICK_OUT`; a tick unit that has failed its comparison fails
again, and Doluo enters Safe (02_tick.md R35; 01_boundary.md R17; 05_ports.md R136; 16_faults.md R380). The model's choice: log entries
30, 31, 54, 74, 84 and 98. -/
def Obligations.RunAndFirstTick : Prop :=
  (∀ s : State, s.blk.lc = .armed →
      (s.blk.Calm → s.blk.RingIdle → s.blk.tick.runAt = none → ∀ node, exec (.run node 1) s =
        s.becomes (((({ s.blk.cmdLast 3 0 0 with
          tick := { s.blk.tick with runAt := some s.blk.tick.wall, startDriven := false, missRun := 0 } }.setReg K.SYNC_OFFSET 0).setReg
          K.SYNC_STATE (setBit (s.blk.reg K.SYNC_STATE) 2 (s.blk.cfg K.SYNC_MODE == 1)))).answered node K.RUN))
      ∧ (s.blk.tick.runAt.isSome = true → s.blk.cfg K.SYNC_MODE = 1 →
        (s.blk.tick.startDriven = false → exec .startPulse s =
          s.becomes { s.blk with tick := { s.blk.tick with startDriven := true, tickOutEnd := s.blk.tick.wall + 4 } })
        ∧ ∃ t, exec .runPulseTimeout s = .next t ∧ s.SameMemory t ∧ t.blk.Entered 0x0103 1 255
          ∧ t.blk.reg K.SYNC_STATE = setBit (s.blk.reg K.SYNC_STATE) 2 false
          ∧ Only [K.SYNC_STATE] [] { s.blk with tick := { s.blk.tick with runAt := none, startDriven := false } } t.blk))
  ∧ (∀ s : State, s.blk.Calm → s.blk.lc = .armed → s.blk.tick.runAt.isSome = true →
      let u : TickUnit :=
        { wall := s.blk.tick.wall, tick := s.blk.cfg K.TICK_START % 2 ^ 40, holdIn := s.blk.tick.holdIn,
          freezeAt := if s.blk.tick.holdIn then [s.blk.tick.wall] else [] }
      let b : Blk := { s.blk with
        lc := .running, sched := { s.blk.sched with grants := [] }, flt := { s.blk.flt with firsts := [] },
        ring := { s.blk.ring with hbWall := 0 } }
      (s.blk.cfg K.SYNC_MODE = 0 → s.blk.flt.badTick = false → exec .firstTickStart s =
        s.becomes ({ b with tick := { u with tickOutEnd := s.blk.tick.wall + 4 } }.setReg K.PROG_NOW 0))
      ∧ (s.blk.cfg K.SYNC_MODE = 1 → s.blk.flt.badTick = false → ∀ w, 4 ≤ w → exec (.syncInPulse w) s =
        s.becomes ((({ b with tick := { u with tickOutEnd := s.blk.tick.tickOutEnd } }.setReg K.PROG_NOW 0).setReg
          K.SYNC_STATE (setBit (s.blk.reg K.SYNC_STATE) 0 true)).setReg K.SYNC_STATE
            (setBit (setBit (s.blk.reg K.SYNC_STATE) 0 true) 2 false)))
      ∧ (s.blk.flt.badTick = true → ∀ c : Instr, (s.blk.cfg K.SYNC_MODE = 0 ∧ c = .firstTickStart) ∨ (s.blk.cfg K.SYNC_MODE = 1 ∧ ∃ w, 4 ≤ w ∧ c = .syncInPulse w) →
        ∃ t, exec c s = .next t ∧ s.SameMemory t ∧ t.blk.Entered 0x0B01 3 255 ∧ t.blk.lc = .safe ∧ t.blk.reg K.SAFE_CAUSE = 0x0B01
          ∧ s.blk.Stopped t.blk))

/-- A pulse shorter than 4 cycles is a glitch: it is counted and does nothing else; with `SYNC_MODE` = 0 no pulse does anything
(01_boundary.md R16, 02_tick.md R36). An accepted pulse outside both windows is one miss, and so is a late window that closes without an
in-window pulse, unless a miss has been counted in it; the miss that reaches `SYNC_MISS_LIMIT` loses the sync (02_tick.md R36, R39). The
model's choice: log entry 30. -/
def Obligations.SyncGlitchesAndMisses : Prop :=
  (∀ (s : State) (w : Nat), s.blk.Calm →
      (s.blk.lc = .off ∨ s.blk.cfg K.SYNC_MODE = 0 → exec (.syncInPulse w) s = .next s)
      ∧ (s.blk.lc ≠ .off → s.blk.cfg K.SYNC_MODE ≠ 0 → w < 4 → exec (.syncInPulse w) s = s.becomes (s.blk.count K.SYNC_GLITCHES)))
  ∧ (∀ s : State, s.blk.ticking = true → s.blk.cfg K.SYNC_MODE = 1 →
      (∀ w, s.blk.Calm → 4 ≤ w → s.blk.tick.unheld + s.blk.cfg K.SYNC_WINDOW < s.blk.cfg K.TICK_LEN + s.blk.tick.ext →
        (s.blk.tick.lateOpen = false ∨ s.blk.cfg K.SYNC_WINDOW ≤ s.blk.tick.unheld) →
        ∃ t, exec (.syncInPulse w) s = .next t ∧ s.SameMemory t ∧ MissTaken s.blk t.blk { s.blk.tick with missed := true })
      ∧ (s.blk.tick.lateOpen = true → s.blk.tick.lateSeen = false → s.blk.tick.missed = false →
        ∃ t, exec .syncWindowClose s = .next t ∧ s.SameMemory t
          ∧ MissTaken s.blk t.blk { s.blk.tick with lateOpen := false, missed := false })
      ∧ (s.blk.tick.lateOpen = true → (s.blk.tick.lateSeen = true ∨ s.blk.tick.missed = true) →
        exec .syncWindowClose s = s.becomes { s.blk with tick := { s.blk.tick with lateOpen := false, missed := false } }))

/-- An accepted pulse in the early or the late window moves the boundary by at most 128 unheld cycles and so that `SYNC_OFFSET` stays
within half the guard band; a clamped move is counted and entered; the consecutive misses are over, and `SYNC_STATE` shows locked. A
second one in the same window is only counted (02_tick.md R36 to R40). -/
def Obligations.InWindowPulseMovesTheBoundary : Prop :=
  ∀ (s : State) (w : Nat) (early : Bool), s.blk.Calm → 4 ≤ w → s.blk.ticking = true → s.blk.cfg K.SYNC_MODE = 1 →
    s.blk.cfg K.GUARD ≤ 8192 → s.blk.reg K.SYNC_OFFSET < 65536 →
    let u := s.blk.tick.unheld
    let len := s.blk.cfg K.TICK_LEN + s.blk.tick.ext
    let inEarly := len ≤ u + s.blk.cfg K.SYNC_WINDOW
    let lim : Int := ((s.blk.cfg K.GUARD / 2 : Nat) : Int)
    let off := toSigned 16 (s.blk.reg K.SYNC_OFFSET)
    let d := if early then len - u else u
    (if early then inEarly else ¬inEarly ∧ s.blk.tick.lateOpen = true ∧ u < s.blk.cfg K.SYNC_WINDOW) →
    ((if early then s.blk.tick.earlySeen else s.blk.tick.lateSeen) = true →
      exec (.syncInPulse w) s = s.becomes (s.blk.count K.SYNC_EXTRA))
    ∧ ((if early then s.blk.tick.earlySeen else s.blk.tick.lateSeen) = false → -lim ≤ off → off ≤ lim →
      ∃ (t : State) (k : Nat), exec (.syncInPulse w) s = .next t ∧ s.SameMemory t
        ∧ (k : Int) = min (min (d : Int) 128) (if early then off + lim else lim - off)
        ∧ toSigned 16 (t.blk.reg K.SYNC_OFFSET) = (if early then off - k else off + k)
        ∧ -lim ≤ toSigned 16 (t.blk.reg K.SYNC_OFFSET) ∧ toSigned 16 (t.blk.reg K.SYNC_OFFSET) ≤ lim
        ∧ t.blk.reg K.SYNC_STATE = setBit (s.blk.reg K.SYNC_STATE) 0 true
        ∧ (k < min d 128 → t.blk.reg K.OFFSET_CLAMPS = min (s.blk.reg K.OFFSET_CLAMPS + 1) 0xFFFFFFFF ∧ t.blk.Entered 0x0101 0 255)
        ∧ (k = min d 128 → t.blk.reg K.OFFSET_CLAMPS = s.blk.reg K.OFFSET_CLAMPS)
        ∧ Only [K.SYNC_OFFSET, K.SYNC_STATE, K.OFFSET_CLAMPS] [] { s.blk with tick := { s.blk.tick with
            cut := if early then k else s.blk.tick.cut, ext := if early then s.blk.tick.ext else k,
            earlySeen := s.blk.tick.earlySeen || early, lateSeen := s.blk.tick.lateSeen || !early,
            ended := s.blk.tick.ended || (early && decide (len - k ≤ u)), missRun := 0, freeRun := false } } t.blk)

/-- A rise of `HOLD_IN` freezes the counter, and a fall lets it resume, from the third wall cycle after it; a rise and a fall in one cycle
freeze nothing; in a state without ticks the pin has no effect but its level (01_boundary.md R18, 02_tick.md R45, R46). The counter
freezes: Holding from Running, one held cycle counted for this tick and in all; it resumes: Running from Holding (02_tick.md R46, R47;
15_states_power.md R353). `HOLD_OUT` high without a rise of `HOLD_IN` enters a hold-network fault, class 1, and `HOLD_OUT` stays high; a
tick held for longer than `STRETCH_LIMIT` is aborted: counted, entered with class 2, and Doluo enters Safe (02_tick.md R45, R47). The
model's choice: log entry 11. -/
def Obligations.HoldsFreezeAndFault : Prop :=
  (∀ s : State,
      (s.blk.tick.holdIn = false → exec .holdInRise s = s.becomes { s.blk with tick := { s.blk.tick with
        holdIn := true, holdSeen := s.blk.tick.holdSeen || s.blk.tick.holdOut.isSome,
        freezeAt := if s.blk.ticking then s.blk.tick.freezeAt ++ [s.blk.tick.wall + 3] else s.blk.tick.freezeAt } })
      ∧ (s.blk.tick.holdIn = true →
        let cut := s.blk.ticking = true ∧ s.blk.tick.freezeAt.getLast? = some (s.blk.tick.wall + 3)
        (cut → exec .holdInFall s = s.becomes { s.blk with tick := { s.blk.tick with
          holdIn := false, endHold := false, freezeAt := s.blk.tick.freezeAt.dropLast } })
        ∧ (¬cut → exec .holdInFall s = s.becomes { s.blk with tick := { s.blk.tick with
          holdIn := false, endHold := false, resumeAt := if s.blk.ticking then s.blk.tick.resumeAt ++ [s.blk.tick.wall + 3] else s.blk.tick.resumeAt } })))
  ∧ (∀ s : State, s.blk.ticking = true →
      (s.blk.tick.frozen = false → s.blk.tick.freezeAt ≠ [] →
        ∃ t, exec .counterFreeze s = .next t ∧ s.SameMemory t
          ∧ t.blk.reg K.HOLD_CYCLES = min (s.blk.reg K.HOLD_CYCLES + 1) (2 ^ 64 - 1)
          ∧ t.blk.reg K.HOLD_TICKS = (if s.blk.tick.heldTick = 0 then min (s.blk.reg K.HOLD_TICKS + 1) 0xFFFFFFFF else s.blk.reg K.HOLD_TICKS)
          ∧ Only [K.HOLD_CYCLES, K.HOLD_TICKS] [] { s.blk with
              lc := if s.blk.lc = LC.running then LC.holding else s.blk.lc,
              tick := { s.blk.tick with
                frozen := true, heldNow := 1, heldTick := s.blk.tick.heldTick + 1, freezeAt := s.blk.tick.freezeAt.tail } } t.blk)
      ∧ (s.blk.tick.frozen = true → s.blk.tick.resumeAt ≠ [] →
        ∃ t, exec .counterResume s = .next t ∧ s.SameMemory t
          ∧ Only [] [] { s.blk with
              lc := if s.blk.lc = LC.holding then LC.running else s.blk.lc,
              tick := { s.blk.tick with frozen := false, heldNow := 0, resumeAt := s.blk.tick.resumeAt.tail } } t.blk))
  ∧ (∀ s : State, s.blk.ticking = true →
      (s.blk.tick.holdOut.isSome = true → s.blk.tick.holdSeen = false → s.blk.tick.netFault = false →
        ∃ t, exec .holdNetworkFault s = .next t ∧ s.SameMemory t ∧ t.blk.Entered 0x0104 1 255
          ∧ Only [] [] { s.blk with tick := { s.blk.tick with netFault := true } } t.blk)
      ∧ (s.blk.tick.frozen = true →
        ∃ t, exec .tickAbort s = .next t ∧ s.SameMemory t ∧ t.blk.Entered 0x0106 2 s.blk.holdCauses ∧ t.blk.sr.phase = 0
          ∧ s.blk.Stopped t.blk
          ∧ t.blk.reg K.TICK_ABORTS = min (s.blk.reg K.TICK_ABORTS + 1) 0xFFFFFFFF ∧ t.blk.reg K.SAFE_CAUSE = 0x0106
          ∧ t.blk.reg K.SYNC_STATE = setBit (s.blk.reg K.SYNC_STATE) 2 false
          ∧ Only [K.TICK_ABORTS, K.SAFE_CAUSE, K.SR_STATUS, K.SYNC_STATE] [K.CMD_LAST] { s.blk.stopAll with
              lc := .safe, sems := [], sr := t.blk.sr, mx := s.blk.engineGone, pins := { s.blk.pins with stopPend := 0 } } t.blk))

/-- `GUARD` begins: every overflowed write that still waits for its replay takes the give-up commit, which makes its rows valid and sets
`UNRECOMP` of its tile (09_numerics.md R220; 11_sequencer.md R272). At the last cycle of `FAULT_SLACK` every transfer that still has a
faulted row, one carried into this tick too, raises hold cause bit 1, and `HOLD_OUT` with it (02_tick.md R33, R42; 07_rows_in_out.md
R165). The model's choice: log entry 32. -/
def Obligations.GuardAndSlackEnd : Prop :=
  (∀ s : State, s.blk.moving = true → s.blk.tick.guardDone = false →
      (s.blk.replayQ = [] → s.blk.Calm → exec .guardBegin s = s.becomes { s.blk with tick := { s.blk.tick with guardDone := true } })
      ∧ (s.blk.replayQ ≠ [] → (∀ i ∈ s.blk.replayQ, (s.blk.op? i).isSome = true) →
        ∃ t, exec .guardBegin s = .next t ∧ s.SameMemory t ∧ t.blk.replayQ = [] ∧ t.blk.tick.guardDone = true
          ∧ t.blk.reg K.UNRECOMP_COMMITS = min (s.blk.reg K.UNRECOMP_COMMITS + s.blk.replayQ.length) 0xFFFFFFFF
          ∧ (s.blk.Settled → s.blk.sems = [] → ∀ i ∈ s.blk.replayQ, ∀ o, s.blk.op? i = some o → (t.blk.tile o.dest).unrecomp = true
            ∧ (t.blk.tile o.dest).rowValid &&& s.blk.commitMask o = s.blk.commitMask o)))
  ∧ (∀ s : State, s.blk.Calm → s.blk.moving = true → s.blk.tick.slackDone = false →
      let own (x : Xfer) : Bool := x.faulted.isSome && (s.blk.op? x.op).any (fun o => o.role == Role.main)
      let up := s.blk.xfers.any (fun x => own x && !x.orphan)
      exec .faultSlackEnd s = s.becomes { s.blk with
        tick := { s.blk.tick with
          slackDone := true, holdOut := if up then some s.blk.tick.wall else none, netFault := !up && s.blk.tick.netFault,
          holdSeen := if up then s.blk.tick.holdIn else s.blk.tick.holdSeen },
        xfers := s.blk.xfers.map (fun x : Xfer => if own x then { x with slackHold := true } else x) })

/-- A scrub cycle writes one row in each group in service with zeros, sideband included, and no other byte of any memory; with the last
row the slot's scrub is done, and a held `TCFG` of it takes effect (03_tile_registers.md R75; 04_banks.md R95). The model's choice: log
entries 28, 37 and 62. -/
def Obligations.ScrubZeroesRowsOfItsSlot : Prop :=
  ∀ (s : State) (k : Nat), s.blk.scrubNow = some k → s.blk.Settled →
    (∀ d ∈ s.blk.heldCfg, d.slot = k → s.blk.Untangled) →
    let r := Tab.get (fun _ => 0) s.blk.scrubRow k
    let n := if s.blk.half then 4 else 8
    let rows := (List.range n).map (fun i => (k, r + i))
    ∃ t, exec .scrubSlot s = .next t ∧ t.pending = s.pending ∧ RowsOnly s.blk rows s.mem t.mem
      ∧ (∀ x ∈ rows, ∀ i, (i < 1024 → t.mem.rowByte s.blk x.1 x.2 i = 0) ∧ (i < 128 → t.mem.sbByte s.blk x.1 x.2 i = 0))
      ∧ (r + n < 64 → Tab.get (fun _ => 0) t.blk.scrubRow k = r + n ∧ t.blk.heldCfg = s.blk.heldCfg ∧ t.blk.tiles = s.blk.tiles)
      ∧ (64 ≤ r + n → Tab.get (fun _ => 0) t.blk.scrubRow k = 0 ∧ t.blk.heldCfg = s.blk.heldCfg.filter (fun d => d.slot != k)
        ∧ ∀ x, t.blk.tile x = if x = k then (s.blk.heldCfg.filter (fun d => d.slot == k)).foldl
          (fun t d => t.configured d s.blk.stamp (s.blk.raises k)) { s.blk.tile x with scrubPend := false } else s.blk.tile x)
      ∧ Only [K.ECC_INJECT] [] { s.blk with
          scrubRow := t.blk.scrubRow, heldCfg := t.blk.heldCfg, tiles := t.blk.tiles, force := t.blk.force, cfgNow := t.blk.cfgNow,
          tick := { s.blk.tick with
            holdOut := t.blk.tick.holdOut, netFault := t.blk.tick.netFault, holdSeen := t.blk.tick.holdSeen },
          sched := { s.blk.sched with waiting := t.blk.sched.waiting, lagging := t.blk.sched.lagging } } t.blk

/-- A boundary waits while `HOLD_IN` is high (02_tick.md R46). One with nothing retired, failed, overflowed or stopped closes the tick's
status and begins logical cycle 0 of the next tick: its number is one more, its program the next of the image; a `STOP` of value 1 waits
for the boundary that selects program 0, and one of the last cycle of a tick for the next boundary (11_sequencer.md R272; 01_boundary.md
R17; 02_tick.md R36, R56; 14_dictionary.md R348, R351). A `STOP` that waits for this boundary, or for the one that selects program 0,
begins Draining, in which nothing issues; a boundary of a drained Doluo ends the ticks: Configured; the 16th that finds it not drained is
entered with class 1 and forces the drain: every operation in flight ends at once where no row transfer waits for its acknowledgement
(15_states_power.md R353, R354; 14_dictionary.md R348). A boundary replaces a retired bank by the free spare in the map, and starts a
waiting save, unless its command came in the last cycle of the tick, which waits for the next boundary (04_banks.md R110; 11_sequencer.md
R272; 15_states_power.md R368). The model's choice: log entries 11, 25 and 26. -/
def Obligations.BoundariesBeginTicksOrDrain : Prop :=
  (∀ s : State, s.blk.Calm → s.blk.moving = true → (s.blk.boundaryWaits = true → exec .tickBoundary s = .next s) ∧
     (s.blk.boundaryWaits = false → s.blk.lc ≠ .draining → s.blk.replayQ = [] → s.blk.flt.retiring = [] →
      s.blk.flt.failing = [] → s.blk.flt.mergeFailing = false → s.blk.sr.phase ≠ 1 → s.blk.pins.stopPend ≠ 2 →
      (s.blk.pins.stopPend = 1 → (s.blk.tick.since + 1) % max 1 s.mem.progs ≠ 0) →
      s.blk.pwr.nextPorts = none → s.blk.pwr.nextGroups = none →
      ∃ t, exec .tickBoundary s = .next t ∧ s.SameMemory t
        ∧ t.blk.reg K.PROG_NOW = (s.blk.tick.since + 1) % max 1 s.mem.progs
        ∧ t.blk.reg K.LAST_STRETCH = min s.blk.tick.heldTick 0xFFFFFFFF
        ∧ t.blk.reg K.RECOMP_USED = s.blk.replayNext - (s.blk.cfg K.TICK_LEN - s.blk.cfg K.GUARD - s.blk.cfg K.RECOMP_RESERVE)
        ∧ t.blk.reg K.ISSUE_LEAD_MIN = s.blk.sched.leadMin.getD 0xFFFFFFFF
        ∧ Only [K.PROG_NOW, K.LAST_STRETCH, K.RECOMP_USED, K.ISSUE_LEAD_MIN] [K.PORT_LOAD] { s.blk with
            tick := { s.blk.tick with
              tick := (s.blk.tick.tick + 1) % 2 ^ 40, lcyc := 0, unheld := 0, ext := 0, cut := 0, since := s.blk.tick.since + 1,
              heldTick := 0, tickOutEnd := s.blk.tick.wall + 4, earlySeen := false, lateSeen := s.blk.tick.earlySeen,
              lateOpen := s.blk.cfg K.SYNC_MODE == 1, ended := false, endHold := false, guardDone := false,
              slackDone := false },
            pins := { s.blk.pins with stopPend := if 3 ≤ s.blk.pins.stopPend then s.blk.pins.stopPend - 2 else s.blk.pins.stopPend },
            sched :=
              { on := s.blk.sched.on, queue := s.blk.sched.queue.drop (s.mem.progLen (s.blk.reg K.PROG_NOW) - s.blk.sched.next) },
            replayNext := 0, flt := { s.blk.flt with firsts := [] }, epOff := s.blk.cfg K.EP_DISABLE,
            ring := { s.blk.ring with hbCount := t.blk.ring.hbCount, beatDue := t.blk.ring.beatDue } } t.blk
        ∧ (s.blk.rw K.HEARTBEAT_TICKS ≠ 0 → s.blk.rw K.HEARTBEAT_TICKS ≤ s.blk.ring.hbCount + 1 →
          t.blk.ring.hbCount = 0 ∧ t.blk.ring.beatDue = true)))
  ∧ (∀ s : State, s.blk.Calm → s.blk.moving = true → s.blk.boundaryWaits = false → s.blk.replayQ = [] → s.blk.flt.retiring = [] →
      s.blk.flt.failing = [] → s.blk.flt.mergeFailing = false → s.blk.sr.phase ≠ 1 → s.blk.pwr.nextPorts = none →
      s.blk.pwr.nextGroups = none →
      (s.blk.lc ≠ .draining → (s.blk.pins.stopPend = 2 ∨ s.blk.pins.stopPend = 1 ∧ (s.blk.tick.since + 1) % max 1 s.mem.progs = 0) →
        ∃ t, exec .tickBoundary s = .next t ∧ s.SameMemory t ∧ t.blk.lc = .draining ∧ t.blk.sched.on = false ∧ t.blk.sched.queue = []
          ∧ t.blk.pins.stopPend = 0 ∧ t.blk.tick.tick = (s.blk.tick.tick + 1) % 2 ^ 40 ∧ t.blk.ops = s.blk.ops
          ∧ t.blk.xfers = s.blk.xfers ∧ t.blk.tiles = s.blk.tiles)
      ∧ (s.blk.lc = .draining → s.blk.drained = true →
        ∃ t, exec .tickBoundary s = .next t ∧ s.SameMemory t ∧ t.blk.lc = .configured ∧ s.blk.Stopped t.blk
          ∧ t.blk.tick.tickOutEnd = 0 ∧ t.blk.tick.tick = s.blk.tick.tick ∧ t.blk.tiles = s.blk.tiles ∧ t.blk.anise = s.blk.anise)
      ∧ (s.blk.lc = .draining → s.blk.drained = false → s.blk.pins.drainN + 1 < 16 →
        ∃ t, exec .tickBoundary s = .next t ∧ s.SameMemory t ∧ t.blk.lc = .draining ∧ t.blk.pins.drainN = s.blk.pins.drainN + 1
          ∧ t.blk.tick.tick = (s.blk.tick.tick + 1) % 2 ^ 40 ∧ t.blk.ops = s.blk.ops ∧ t.blk.xfers = s.blk.xfers ∧ t.blk.tiles = s.blk.tiles)
      ∧ (s.blk.lc = .draining → s.blk.drained = false → 16 ≤ s.blk.pins.drainN + 1 → s.blk.xfers = [] → s.blk.sr.phase = 0 →
        (∀ o ∈ s.blk.ops, ∀ w ∈ s.blk.writes, w.kind = .sv → w.op ≠ o.id) →
        ∃ t, exec .tickBoundary s = .next t ∧ s.SameMemory t ∧ t.blk.Entered 0x0503 1 255 ∧ t.blk.lc = .configured ∧ s.blk.Stopped t.blk
          ∧ t.blk.tick.tick = s.blk.tick.tick))
  ∧ (∀ s : State, s.blk.AtBoundary → s.blk.pwr.nextPorts = none → s.blk.pwr.nextGroups = none → s.blk.pins.stopPend = 0 →
      s.blk.flt.failing = [] → s.blk.flt.mergeFailing = false →
      let heads := (s.blk.ctxSlots s.blk.sr.ctx).map (fun k => (k, (s.blk.tile k).header (k % 64)))
      (∀ p l q, s.blk.flt.retiring = [p] → p < 34 → (List.range 32).find? (fun i => s.blk.bankMap i == p) = some l → s.blk.half = false →
        s.blk.freeSpare = some q → s.blk.sr.phase ≠ 1 →
        ∃ t, exec .tickBoundary s = .next t ∧ s.SameMemory t ∧ t.blk.tick.tick = (s.blk.tick.tick + 1) % 2 ^ 40 ∧ t.blk.lc = s.blk.lc
          ∧ t.blk.flt.retiring = [] ∧ t.blk.reg K.SPARES_FREE = s.blk.reg K.SPARES_FREE - 1 ∧ t.blk.tiles = s.blk.tiles
          ∧ ∀ i, i < 32 → t.blk.bankMap i = if i = l then q else s.blk.bankMap i)
      ∧ (s.blk.flt.retiring = [] → s.blk.sr.phase = 1 → s.blk.sr.isSave = true → s.blk.xfers = [] →
        ∃ t, exec .tickBoundary s = .next t ∧ s.SameMemory t ∧ t.blk.tick.tick = (s.blk.tick.tick + 1) % 2 ^ 40 ∧ t.blk.lc = s.blk.lc
          ∧ (s.blk.sr.late = true → t.blk.sr = { s.blk.sr with late := false } ∧ t.blk.reg K.SR_STATUS = s.blk.reg K.SR_STATUS)
          ∧ (s.blk.sr.late = false → s.blk.engineFree 7 = true →
            roundUp (saveSize heads (saveRange s.blk.sr.anise heads).2) 1024 ≤ s.blk.sr.limit → t.blk.sr.phase = 2 ∧ t.blk.sr.heads = heads ∧ t.blk.sr.isSave = true ∧ t.blk.sr.ctx = s.blk.sr.ctx ∧ t.blk.sr.stamp = s.blk.stamp
            ∧ t.blk.reg K.SR_STATUS = 2)))

/-! ### Power -/

/-- `PWR_BLOCK` in Configured: Retain and Off gate the data path and wait for `PWR_ACK`, and Off also makes every slot dead and loses the
arrays; a wake requests the full rail again (15_states_power.md R361 to R363). `PWR_ACK` rises: with no change waiting nothing else
happens, and in Boot the change waits for the end of the boot; an entry is complete, and `PWR_NOW` reads the requested state; a wake goes
on for 2,048 cycles, from Off 8,500 (15_states_power.md R362, R363, R370). A change whose `PWR_ACK` does not rise in time is counted and
entered once, with class 1; a wake that ends makes every unit Active, both Idle entries 0 and `PWR_NOW` 0, and clears the unmapped spare
banks where it comes from Off or the boot has left them; in Boot it waits (04_banks.md R106; 01_boundary.md R21; 15_states_power.md R363).
The model's choice: log entries 3 and 38. -/
def Obligations.PowerChangesStartAndComplete : Prop :=
  (∀ (s : State) (node : Nat), s.blk.Calm → s.blk.RingIdle → s.blk.lc = .configured → s.blk.pins.bist = 0 → s.blk.sr.phase = 0 →
      s.blk.pwr.waitAck = none → s.blk.writes = [] →
      let p := s.blk.pwr
      let now := s.blk.reg K.PWR_NOW % 128 + 128
      (∀ v, v = 2 ∨ v = 3 → v ≠ s.blk.reg K.PWR_BLOCK → (s.blk.reg K.PWR_BLOCK = 3 → v ≠ 2) →
        ∃ t, exec (.pwrBlock node v) s = .next t ∧ t.pending = s.pending
          ∧ t.mem = { s.mem with data := if v = 3 then [] else s.mem.data, side := if v = 3 then [] else s.mem.side,
                                 marks := if v = 3 then [] else s.mem.marks }.withRecord K.PWR_BLOCK 1 v
          ∧ t.blk.reg K.PWR_NOW = now ∧ t.blk.reg K.PWR_BLOCK = v
          ∧ Only [K.PWR_NOW, K.PWR_BLOCK] [] (({ s.blk with
              pwr := { p with gated := true, req := v - 1, ack := false, waitAck := some s.blk.tick.wall, timedOut := false, wakeEnd := none },
              tiles := if v = 3 then s.blk.tiles.map (fun x : Nat × Tile => (x.1, { gen := nextGen false x.2.gen })) else s.blk.tiles
              }.commitRecord K.PWR_BLOCK).answered node K.PWR_BLOCK) t.blk)
      ∧ (s.blk.reg K.PWR_BLOCK ≠ 0 →
        exec (.pwrBlock node 0) s = .next { s with
          mem := s.mem.withRecord K.PWR_BLOCK 1 0,
          blk := ((({ s.blk with pwr :=
              { p with req := 0, ack := false, waitAck := some s.blk.tick.wall, timedOut := false, wakeEnd := none,
                       fromOff := s.blk.reg K.PWR_BLOCK == 3 } }.setReg
                K.PWR_NOW now).setReg K.PWR_BLOCK 0).commitRecord K.PWR_BLOCK).answered node K.PWR_BLOCK }))
  ∧ (∀ s : State,
      let p := s.blk.pwr
      (p.waitAck = none ∨ s.blk.lc = .off ∨ s.blk.lc = .boot → exec .pwrAckRise s = s.becomes { s.blk with pwr := { p with ack := true } })
      ∧ (p.waitAck.isSome = true → s.blk.lc ≠ .off → s.blk.lc ≠ .boot → p.req ≠ 0 → exec .pwrAckRise s =
        s.becomes ({ s.blk with pwr := { p with ack := true, waitAck := none, timedOut := false } }.setReg K.PWR_NOW (s.blk.reg K.PWR_BLOCK)))
      ∧ (p.waitAck.isSome = true → s.blk.lc ≠ .off → s.blk.lc ≠ .boot → p.req = 0 → exec .pwrAckRise s =
        s.becomes ({ s.blk with pwr :=
          { p with
            ack := true, waitAck := none, timedOut := false, wakeEnd := some (s.blk.tick.wall + if p.fromOff then 8500 else 2048) }
          }.setReg K.PWR_NOW (s.blk.reg K.PWR_NOW % 128))))
  ∧ (∀ s : State,
      (s.blk.pwr.waitAck.isSome = true → s.blk.pwr.ack = false → s.blk.pwr.timedOut = false → s.blk.lc ≠ .off →
        ∃ t, exec .pwrAckTimeout s = .next t ∧ s.SameMemory t ∧ t.blk.Entered 0x030C 1 255
          ∧ t.blk.reg K.PWR_ACK_TIMEOUTS = min (s.blk.reg K.PWR_ACK_TIMEOUTS + 1) 0xFFFFFFFF
          ∧ Only [K.PWR_ACK_TIMEOUTS] [] { s.blk with pwr := { s.blk.pwr with timedOut := true } } t.blk)
      ∧ (s.blk.lc = .boot → exec .wakeComplete s = .next s)
      ∧ (s.blk.pwr.wakeEnd.isSome = true → s.blk.lc ≠ .boot →
        exec .wakeComplete s = .next { s with
          mem :=
            let m := (s.mem.withRecord K.PWR_IDLE_GROUPS 1 0).withRecord K.PWR_IDLE_PORTS 1 0
            if s.blk.pwr.fromOff || s.blk.pwr.spareDue then clearSpares s.blk m else m,
          blk := { ((s.blk.setReg K.PWR_IDLE_GROUPS 0).commitRecord K.PWR_IDLE_GROUPS).setReg K.PWR_IDLE_PORTS 0 |>.commitRecord
              K.PWR_IDLE_PORTS with
            pwr :=
              { s.blk.pwr with
                portsIdle := 0, groupsIdle := 0, wakes := [], sleeps := [], nextPorts := none, nextGroups := none, wakeEnd := none,
                gated := false, fromOff := false, spareDue := false } }.setReg K.PWR_NOW 0 }))

/-- An Idle entry written in Armed or while ticks run waits for the boundary; for a group only 0 is taken then. In Configured and Safe
each named port or group, in half mode each half group, is Idle from the second cycle after the write, or Active after its wake, which
begins then (14_dictionary.md R333, R342, R343; 10_descriptors.md R248). A boundary puts the Idle states that have been written while
ticks ran in force for its first cycle: each port, and each group (in half mode each half group), that the entry names is Idle from then
on, or Active after its wake of four cycles (14_dictionary.md R342, R343; 10_descriptors.md R248). The model's choice: log entry 38. -/
def Obligations.IdleEntriesSetUnitStates : Prop :=
  (∀ (s : State) (node v : Nat), s.blk.Calm → s.blk.Serving → s.blk.pins.bist = 0 → s.blk.reg K.PWR_BLOCK = 0 →
      ((s.blk.lc = .armed ∨ s.blk.ticking = true) → v < 64 → (s.blk.reg K.IMAGE_STATE = 2 → Nat.land v (s.mem.imgVal 35 1) = 0) →
        exec (.pwrIdlePorts node v) s = .next { s with
          mem := s.mem.withRecord K.PWR_IDLE_PORTS 1 v,
          blk := ({ (s.blk.setReg K.PWR_IDLE_PORTS v).commitRecord K.PWR_IDLE_PORTS with
            pwr := { s.blk.pwr with nextPorts := some v } }).answered node K.PWR_IDLE_PORTS })
      ∧ ((s.blk.lc = .armed ∨ s.blk.ticking = true) → exec (.pwrIdleGroups node 0) s = .next { s with
          mem := s.mem.withRecord K.PWR_IDLE_GROUPS 1 0,
          blk := ({ (s.blk.setReg K.PWR_IDLE_GROUPS 0).commitRecord K.PWR_IDLE_GROUPS with
            pwr := { s.blk.pwr with nextGroups := some 0 } }).answered node K.PWR_IDLE_GROUPS })
      ∧ ((s.blk.lc = .configured ∨ s.blk.lc = .safe) → v < 64 →
        ∃ t, exec (.pwrIdlePorts node v) s = .next t ∧ t.mem = s.mem.withRecord K.PWR_IDLE_PORTS 1 v ∧ t.pending = s.pending
          ∧ (∀ i, i < 6 → t.blk.idleBit i = bit v i ∧ (s.blk.idleBit i ≠ bit v i → if bit v i = true
              then s.blk.active i = true → (i, s.blk.tick.wall + 2) ∈ t.blk.pwr.sleeps else (i, s.blk.tick.wall + 6) ∈ t.blk.pwr.wakes))
          ∧ t.blk.pwr.groupsIdle = s.blk.pwr.groupsIdle ∧ t.blk.reg K.PWR_IDLE_PORTS = v
          ∧ Only [K.PWR_IDLE_PORTS] [] ({ s.blk.commitRecord K.PWR_IDLE_PORTS with pwr := { s.blk.pwr with
              portsIdle := t.blk.pwr.portsIdle, wakes := t.blk.pwr.wakes, sleeps := t.blk.pwr.sleeps } }.answered node K.PWR_IDLE_PORTS) t.blk)
      ∧ ((s.blk.lc = .configured ∨ s.blk.lc = .safe) → v < (if s.blk.half then 16 else 256) →
        ∃ t, exec (.pwrIdleGroups node v) s = .next t ∧ t.mem = s.mem.withRecord K.PWR_IDLE_GROUPS 1 v ∧ t.pending = s.pending
          ∧ (s.blk.half = false → ∀ i, i < 8 → t.blk.idleBit (8 + i) = bit v i ∧ (s.blk.idleBit (8 + i) ≠ bit v i → if bit v i = true
              then s.blk.active (8 + i) = true → (8 + i, s.blk.tick.wall + 2) ∈ t.blk.pwr.sleeps
              else (8 + i, s.blk.tick.wall + 6) ∈ t.blk.pwr.wakes))
          ∧ (s.blk.half = true → (∀ h, h < 4 → s.blk.halfGroup h < 8) → (∀ h, h < 4 → ∀ j, j < 4 → s.blk.halfGroup h = s.blk.halfGroup j → h = j) →
              (∀ h, h < 4 → t.blk.idleBit (8 + s.blk.halfGroup h) = bit v h)
              ∧ ∀ g, g < 8 → (∀ h, h < 4 → s.blk.halfGroup h ≠ g) → t.blk.idleBit (8 + g) = s.blk.idleBit (8 + g))
          ∧ t.blk.pwr.portsIdle = s.blk.pwr.portsIdle ∧ t.blk.reg K.PWR_IDLE_GROUPS = v
          ∧ Only [K.PWR_IDLE_GROUPS] [] ({ s.blk.commitRecord K.PWR_IDLE_GROUPS with pwr := { s.blk.pwr with
              groupsIdle := t.blk.pwr.groupsIdle, wakes := t.blk.pwr.wakes, sleeps := t.blk.pwr.sleeps } }.answered node K.PWR_IDLE_GROUPS) t.blk))
  ∧ (∀ s : State, s.blk.AtBoundary → s.blk.flt.retiring = [] → s.blk.sr.phase ≠ 1 → s.blk.pins.stopPend = 0 → s.blk.flt.failing = [] →
      s.blk.flt.mergeFailing = false →
      let goes (t : State) (u : Nat) (idle : Bool) : Prop := t.blk.idleBit u = idle ∧ (s.blk.idleBit u ≠ idle → if idle = true
        then s.blk.active u = true → (u, s.blk.tick.wall) ∈ t.blk.pwr.sleeps else (u, s.blk.tick.wall + 4) ∈ t.blk.pwr.wakes)
      ∃ t, exec .tickBoundary s = .next t ∧ s.SameMemory t ∧ t.blk.tick.tick = (s.blk.tick.tick + 1) % 2 ^ 40 ∧ t.blk.lc = s.blk.lc
        ∧ t.blk.pwr.nextPorts = none ∧ t.blk.pwr.nextGroups = none
        ∧ (∀ v, s.blk.pwr.nextPorts = some v → ∀ i, i < 6 → goes t i (bit v i))
        ∧ (s.blk.pwr.nextPorts = none → t.blk.pwr.portsIdle = s.blk.pwr.portsIdle)
        ∧ (∀ v, s.blk.pwr.nextGroups = some v →
          (s.blk.half = false → ∀ i, i < 8 → goes t (8 + i) (bit v i))
          ∧ (s.blk.half = true → (∀ h, h < 4 → s.blk.halfGroup h < 8) → (∀ h, h < 4 → ∀ j, j < 4 → s.blk.halfGroup h = s.blk.halfGroup j → h = j) →
            (∀ h, h < 4 → t.blk.idleBit (8 + s.blk.halfGroup h) = bit v h)
            ∧ ∀ g, g < 8 → (∀ h, h < 4 → s.blk.halfGroup h ≠ g) → t.blk.idleBit (8 + g) = s.blk.idleBit (8 + g)))
        ∧ (s.blk.pwr.nextGroups = none → t.blk.pwr.groupsIdle = s.blk.pwr.groupsIdle))

/-! ### Units that take the cell out -/

/-- A failure that takes the cell out is entered with class 3 and its code; from every state but Boot Doluo enters Safe with that code as
`SAFE_CAUSE`, every operation in flight ends, and a first cause stays; in Boot it is only entered (16_faults.md R380, R392;
11_sequencer.md R285; 15_states_power.md R353, R355). A retired bank with no spare left: four intact groups and more make half mode, in
which context 1 is dead and every tile of context 0 damaged, or, in half mode already, damage every tile and choose the half groups again
where the bank's was one of them; fewer than four take the cell out with event 0x0207 (04_banks.md R111; 16_faults.md R377, R380, R387).
The boundary takes failed units out of service and leads to Draining: a port is fenced, with event 0x0309, and the open operations on it
end; the merge unit goes out with event 0x0606; a valid image is valid no longer (16_faults.md R378, R379, R381; 06_sumac.md R148;
10_descriptors.md R264). The model's choice: log entries 39 and 98. -/
def Obligations.CellOutFaultsEnterSafe : Prop :=
  (∀ (s : State) (c : Instr) (code : Nat), cellOutCode c = some code → s.blk.lc ≠ .off →
      (c = .bridgeSendCrcMismatch → s.blk.ring.fenced = false) → (c = .railLost → s.blk.pwr.req = 0 ∧ s.blk.pwr.waitAck = none) →
      ((∃ d, c = .seqRamUncorrectable d) ∨ c = .watchdogExpiry →
        s.blk.mx.waits = [] ∧ s.blk.mx.locks = [] ∧ s.blk.mx.freed = [] ∧ s.blk.flt.trWait = []) →
      let unit := match c with
        | .conversionMismatch p => p % 256
        | .matrixParityError x => x % 256
        | .seqRamUncorrectable d => if d then 1 else 0
        | _ => 255
      ∃ t, exec c s = .next t ∧ s.SameMemory t ∧ t.blk.Entered code 3 unit
        ∧ (s.blk.lc = .boot ∨ s.blk.lc = .safe → Only [K.SEQ_ECC_UE, K.WDOG_EXPIRIES] [] { s.blk with
            pins := t.blk.pins, pwr := t.blk.pwr, ring := t.blk.ring,
            flt := { s.blk.flt with badTick := t.blk.flt.badTick, badConv := t.blk.flt.badConv } } t.blk ∧ t.blk.lc = s.blk.lc)
        ∧ t.blk.flt.badTick = (s.blk.flt.badTick || c == .tickUnitMismatch)
        ∧ (∀ p, c = .conversionMismatch p → t.blk.flt.badConv = some p)
        ∧ ((∀ p, c ≠ .conversionMismatch p) → t.blk.flt.badConv = s.blk.flt.badConv)
        ∧ (s.blk.lc ≠ .boot → s.blk.lc ≠ .safe → s.blk.InSafe t.blk code
          ∧ Only [K.SAFE_CAUSE, K.SR_STATUS, K.SYNC_STATE, K.SEQ_ECC_UE, K.WDOG_EXPIRIES] [K.CMD_LAST] { s.blk.stopAll with
              lc := .safe, sems := [], sr := t.blk.sr, pwr := t.blk.pwr, ring := t.blk.ring, mx := { s.blk.mx with waits := s.blk.engineGone.waits },
              flt := { s.blk.flt with badTick := t.blk.flt.badTick, badConv := t.blk.flt.badConv },
              pins := { s.blk.pins with stopPend := 0, seqHeld := t.blk.pins.seqHeld } } t.blk)
        ∧ (c = .railLost → t.blk.pwr = { s.blk.pwr with ack := false }) ∧ (c ≠ .railLost → t.blk.pwr = s.blk.pwr)
        ∧ (c = .bridgeSendCrcMismatch → t.blk.ring.fenced = true ∧ t.blk.ring.seg = none ∧ t.blk.ring.answers = [] ∧ t.blk.ring.queue = [])
        ∧ (c ≠ .bridgeSendCrcMismatch → t.blk.ring.seg = s.blk.ring.seg ∧ t.blk.ring.answers = s.blk.ring.answers))
  ∧ (∀ (s : State) (node p l : Nat), s.blk.Calm → s.blk.Serving → s.blk.pins.bist = 0 → s.blk.Untangled → p < 34 → s.blk.ticking = false →
      s.blk.lc ≠ .safe → s.blk.flt.retiring = [] → (List.range 32).find? (fun i => s.blk.bankMap i == p) = some l → s.blk.retired p = false →
      s.blk.freeSpare = none → s.blk.sr.phase = 0 →
      let gs := (s.blk.setReg K.BANKS_RETIRED (Nat.lor (s.blk.reg K.BANKS_RETIRED) (2 ^ p))).intactGroups
      let chosen (t : State) : Prop := (∀ h, h < 4 → t.blk.halfGroup h = gs.getD h 0)
        ∧ t.blk.reg K.IMAGE_STATE = (if s.blk.half = false ∧ s.blk.reg K.IMAGE_STATE = 2 then 4 else s.blk.reg K.IMAGE_STATE)
      let damaged (t : State) (k : Nat) : Prop := (s.blk.tile k).inUse = true → (t.blk.tile k).state = .damaged
        ∧ (t.blk.tile k).rowValid = (s.blk.tile k).rowValid
      ∃ t, exec (.retireBank node p) s = .next t ∧ s.SameMemory t
        ∧ t.blk.reg K.BANKS_RETIRED = Nat.lor (s.blk.reg K.BANKS_RETIRED) (2 ^ p)
        ∧ (s.blk.half = false → 4 ≤ gs.length → t.blk.lc = s.blk.lc ∧ t.blk.half = true ∧ t.blk.Entered 0x0205 2 gs.length ∧ chosen t
          ∧ (∀ k, k < 64 → damaged t k)
          ∧ (∀ k, 64 ≤ k → k < 128 → (t.blk.tile k).inUse = false ∧ (t.blk.tile k).state = .empty ∧ (t.blk.tile k).rowValid = 0))
        ∧ (s.blk.half = true → 4 ≤ gs.length → (∃ h, h < 4 ∧ s.blk.halfGroup h = l / 4) → t.blk.lc = s.blk.lc ∧ t.blk.half = true
          ∧ t.blk.Entered 0x0206 2 p ∧ chosen t ∧ ∀ k, k < 128 → damaged t k)
        ∧ (s.blk.half = true → 4 ≤ gs.length → (∀ h, h < 4 → s.blk.halfGroup h ≠ l / 4) → t.blk.lc = s.blk.lc ∧ t.blk.Entered 0x0203 2 p
          ∧ t.blk.reg K.HALF_GROUPS = s.blk.reg K.HALF_GROUPS)
        ∧ (gs.length < 4 → t.blk.Entered 0x0207 3 gs.length ∧ s.blk.InSafe t.blk 0x0207))
  ∧ (∀ s : State, s.blk.AtBoundary → s.blk.pwr.nextPorts = none → s.blk.pwr.nextGroups = none → s.blk.flt.retiring = [] → s.blk.sr.phase = 0 →
      s.blk.xfers = [] → s.blk.sems = [] → s.blk.mx.waits = [] →
      let drains (t : State) : Prop := t.blk.lc = .draining ∧ t.blk.tick.tick = (s.blk.tick.tick + 1) % 2 ^ 40 ∧ t.blk.sched.on = false
        ∧ t.blk.reg K.IMAGE_STATE = if s.blk.reg K.IMAGE_STATE = 2 then 4 else s.blk.reg K.IMAGE_STATE
      (∀ p, s.blk.flt.failing = [p] → p < 6 → s.blk.fenced p = false → s.blk.flt.mergeFailing = false →
        ∃ t, exec .tickBoundary s = .next t ∧ s.SameMemory t ∧ t.blk.Entered 0x0309 2 p ∧ drains t ∧ t.blk.flt.failing = []
          ∧ t.blk.reg K.PORT_FENCED = setBit (s.blk.reg K.PORT_FENCED) p true ∧ t.blk.reg K.UNITS_OUT = s.blk.reg K.UNITS_OUT
          ∧ ((∀ o ∈ s.blk.ops, o.opn = true → o.d.port ≠ p ∧ (isLoop o.d.opc = true → o.d.wport ≠ p)) → t.blk.ops = s.blk.ops)
          ∧ (∀ o, s.blk.ops = [o] → o.opn = true → o.d.port = p → o.d.opc = 0x20 ∨ o.d.opc = 0x21 ∨ o.d.opc = 0x50 → t.blk.ops = []))
      ∧ (s.blk.flt.failing = [] → s.blk.flt.mergeFailing = true → (∀ o ∈ s.blk.ops, o.d.opc ≠ 0x31 ∧ o.d.opc ≠ 0x32 ∧ o.d.opc ≠ 0x33) →
        ∃ t, exec .tickBoundary s = .next t ∧ s.SameMemory t ∧ t.blk.Entered 0x0606 2 255 ∧ drains t ∧ t.blk.flt.mergeFailing = false
          ∧ t.blk.reg K.UNITS_OUT = 1 ∧ t.blk.reg K.PORT_FENCED = s.blk.reg K.PORT_FENCED ∧ t.blk.ops = s.blk.ops))

/-! ### Descriptors -/

/-- `TCFG` configures its slot: in use, empty, with the shape, Anise slot, epoch and `ZREAD` it gives, as the accesses from the next cycle
on see it; a slot whose release scrub is pending keeps its configuration until it is scrubbed, under a hold. `TREL` makes its slot dead,
for the accesses of its own cycle too. A cancel of the same cycle raises the epoch that the `TCFG` gives, and none of a slot that the
`TREL` makes dead. No other tile changes (03_tile_registers.md R71, R73, R75, R82). The model's choice: log entries 52 and 62. -/
def Obligations.TilesAreConfiguredAndReleased : Prop :=
  ∀ (s : State) (d : Desc), s.blk.Issues s.mem d → s.blk.Calm → s.blk.Untangled →
    let x := s.blk.tile d.slot
    let b := s.blk.passed s.mem d
    (d.opc = 0x01 → ∃ t, exec (.tcfg d) s = .next t ∧ s.SameMemory t
      ∧ (∀ k, t.blk.tile k = if k = d.slot ∧ x.scrubPend = false then x.configured d s.blk.stamp (s.blk.raises d.slot) else s.blk.tile k)
      ∧ (∀ k, t.blk.seenTile k = s.blk.seenTile k)
      ∧ (x.scrubPend = false → Only [] [] { b with tiles := t.blk.tiles, seen := t.blk.seen, cfgNow := d.slot :: s.blk.cfgNow } t.blk)
      ∧ (x.scrubPend = true → Only [] [] { b with
          heldCfg := [d],
          tick := { b.tick with holdOut := some s.blk.tick.wall, netFault := false, holdSeen := s.blk.tick.holdIn } } t.blk))
    ∧ (d.opc = 0x02 → ∃ t, exec (.trel d) s = .next t ∧ s.SameMemory t
      ∧ (∀ k, t.blk.tile k = if k = d.slot then { x with
          state := .empty, inUse := false, rowValid := 0, writers := 0, scrubPend := s.blk.cfg K.SCRUB_ON_REL == 1,
          epoch := if x.inUse then subMod 65536 x.epoch (s.blk.raises d.slot % 65536) else x.epoch,
          lastStamp := if x.state = .empty then x.lastStamp else s.blk.stamp, gen := nextGen false x.gen } else s.blk.tile k)
      ∧ (∀ k, t.blk.seenTile k = if k = d.slot then t.blk.tile k else s.blk.seenTile k)
      ∧ (x.scrubPend = false → Tab.get (fun _ => 0) t.blk.scrubRow d.slot = 0)
      ∧ Only [] [] { b with tiles := t.blk.tiles, seen := t.blk.seen, scrubRow := t.blk.scrubRow } t.blk)

/-- `TCANCEL` raises the epoch of every live slot of its range by one, and no other tile changes; an empty range is counted. `PWR` makes
the ports and groups it names Idle or Active, and no other, in half mode the four half groups; `TEND` ends the issue of the tick
(03_tile_registers.md R71, R84; 10_descriptors.md R248, R249). `MARK` makes one trace record of kind 2 with its `MARK_ID` and the program
number, and changes nothing else (10_descriptors.md R249; 16_faults.md R389). The model's choice: log entry 52. -/
def Obligations.CancelPowerAndEndDescriptors : Prop :=
  (∀ (s : State) (d : Desc), s.blk.Issues s.mem d → s.blk.Calm →
      let b := s.blk.passed s.mem d
      (d.opc = 0x03 → d.nslots = 0 → exec (.tcancel d) s = s.becomes (b.count K.EMPTY_OPS))
      ∧ (d.opc = 0x03 → d.nslots ≠ 0 → s.blk.sems = [] → ∃ t, exec (.tcancel d) s = .next t ∧ s.SameMemory t
        ∧ (∀ k, t.blk.tile k = if d.slot ≤ k ∧ k < d.slot + d.nslots ∧ (s.blk.tile k).inUse = true
            then { s.blk.tile k with
              epoch := ((s.blk.tile k).epoch + 1) % 65536, maceDisc := min (s.blk.tile k).maceDisc 65535 } else s.blk.tile k)
        ∧ (∀ k, t.blk.seenTile k = s.blk.seenTile k)
        ∧ (∀ k, t.blk.raises k = s.blk.raises k + if d.slot ≤ k ∧ k < d.slot + d.nslots then 1 else 0)
        ∧ Only [] [] { b with tiles := t.blk.tiles, seen := t.blk.seen, raised := t.blk.raised } t.blk)
      ∧ (d.opc = 0x70 → d.pmask = 0 → d.gmask = 0 → exec (.pwr d) s = s.becomes (b.count K.EMPTY_OPS))
      ∧ (d.opc = 0x70 → (d.pmask ≠ 0 ∨ d.gmask ≠ 0) → s.blk.half = false → ∃ t, exec (.pwr d) s = .next t ∧ s.SameMemory t
        ∧ (∀ p, t.blk.idleBit p = if p < 6 ∧ bit d.pmask p = true then d.pstate == 1 else
            if 8 ≤ p ∧ p < 16 ∧ bit d.gmask (p - 8) = true then d.pstate == 1 else s.blk.idleBit p)
        ∧ Only [] [] { b with pwr := t.blk.pwr } t.blk)
      ∧ (d.opc = 0x70 → (d.pmask ≠ 0 ∨ d.gmask ≠ 0) → s.blk.half = true → ∃ t, exec (.pwr d) s = .next t ∧ s.SameMemory t
        ∧ (∀ p, (p < 6 → t.blk.idleBit p = if bit d.pmask p = true then d.pstate == 1 else s.blk.idleBit p)
          ∧ ((∃ h, h < 4 ∧ bit d.gmask h = true ∧ p = 8 + s.blk.halfGroup h) → t.blk.idleBit p = (d.pstate == 1))
          ∧ (6 ≤ p → ¬(∃ h, h < 4 ∧ bit d.gmask h = true ∧ p = 8 + s.blk.halfGroup h) → t.blk.idleBit p = s.blk.idleBit p))
        ∧ Only [] [] { b with pwr := t.blk.pwr } t.blk)
      ∧ (d.opc = 0x7F → exec (.tend d) s = s.becomes { b with sched := { b.sched with ended := true } }))
  ∧ (∀ (s : State) (d : Desc), s.blk.Issues s.mem d → s.blk.Calm → d.opc = 0x71 →
      ∃ t, exec (.mark d) s = .next t ∧ s.SameMemory t ∧ Only [] [] (s.blk.passed s.mem d) t.blk
        ∧ t.blk.reg K.EH_TOTAL = s.blk.reg K.EH_TOTAL
        ∧ (bit (s.blk.rw K.TRACE_EN) 1 = false → t.blk.trace = s.blk.trace)
        ∧ (bit (s.blk.rw K.TRACE_EN) 1 = true → bit (s.blk.cfg K.MX_MASTER_EN) 4 = true → s.blk.lockOf 6 = none →
          s.blk.rw K.TRACE_STOP_FULL = 0 →
          let r := Tab.get (fun _ => []) t.blk.trace (s.blk.reg K.TRACE_NEXT / 32)
          fieldAt r 0 8 = s.blk.stamp.toNat ∧ fieldAt r 8 1 = 2 ∧ fieldAt r 16 4 = d.markId % 2 ^ 32
            ∧ fieldAt r 20 2 = s.blk.reg K.PROG_NOW % 2 ^ 16
            ∧ t.blk.reg K.TRACE_NEXT = (s.blk.reg K.TRACE_NEXT + 32) % 262144))

/-- The issue of a port operation starts it: one operation with its descriptor, at its first access, in its requester's queue where it is
open; each tile it writes sees a write issue, and no other tile changes (03_tile_registers.md R71, R73; 06_sumac.md R138; 11_sequencer.md
R269). The model's choice: log entry 52. -/
def Obligations.PortOperationsStart : Prop :=
  ∀ (s : State) (d : Desc) (c : Desc → Instr),
    (c, d.opc) ∈ ([(.tfeed, 0x20), (.tfeedt, 0x21), (.ttake, 0x22), (.tgather, 0x30), (.tmove, 0x40), (.tconv, 0x41), (.tsend, 0x50),
      (.trecv, 0x51)] : List ((Desc → Instr) × Nat)) →
    s.blk.Issues s.mem d → s.blk.Calm → emptyDesc d = false → (d.opc = 0x30 → d.nidx ≠ 0) → s.blk.shapeCheck d = none →
    (isOpenDesc d = true → (s.blk.requester d.port d.req).queue.length < 8) →
    let b := s.blk.passed s.mem d
    let mask := if tileCommit d.opc then rowMask d.start d.nrows else 0
    ∃ (t : State) (o : Op), exec (c d) s = .next t ∧ s.SameMemory t
      ∧ o.id = s.blk.opNo ∧ o.d = d ∧ o.role = .main ∧ o.opn = isOpenDesc d ∧ o.tick = s.blk.tick.tick ∧ o.n = 0 ∧ o.taken = false
      ∧ (∀ i, s.blk.placeOf s.mem d = some i → (i ≠ noIdx → o.base = d.slotCycle) ∧ o.idx = i)
      ∧ (s.blk.placeOf s.mem d = none → o.base = s.blk.tick.lcyc)
      ∧ o.total = (if d.opc = 0x30 then d.nidx else if d.opc = 0x50 ∨ d.opc = 0x51 then d.nrows else
          accessTotal d (if d.opc = 0x22 then (s.blk.tile d.slot).shape else s.blk.readShape d.slot (d.opc == 0x21)))
      ∧ (∀ k, t.blk.tile k = if k ∈ checkWrites d then (s.blk.tile k).issued mask (tileCommit d.opc) s.blk.stamp else s.blk.tile k)
      ∧ Only [K.ANISE_SHARED] [] { (if isOpenDesc d then b.enqueue d.port d.req s.blk.opNo else b) with
          ops := s.blk.ops ++ [o], opNo := s.blk.opNo + 1, tiles := t.blk.tiles, seen := t.blk.seen } t.blk

/-- A `TLD` or `TST` that heads its queue while fewer than 16 transfers are active becomes active at once: a transfer with the next
number, last in the command order, whose command beat enters the `LS-O` return buffer; the tile of a load sees a write issue
(07_rows_in_out.md R152, R154, R156, R158). The model's choice: log entries 18 and 52. -/
def Obligations.RowTransfersStart : Prop :=
  ∀ (s : State) (d : Desc) (c : Desc → Instr), (c, d.opc) ∈ ([(.tld, 0x10), (.tst, 0x11)] : List ((Desc → Instr) × Nat)) →
    isOpenDesc d = true → s.blk.Issues s.mem d → s.blk.Calm → emptyDesc d = false → s.blk.shapeCheck d = none →
    (s.blk.requester d.port d.req).queue = [] → (∀ x ∈ s.blk.xfers, x.op ≠ s.blk.opNo) → s.blk.xfers.length < 16 →
    let b := s.blk.passed s.mem d
    ∃ (t : State) (o : Op) (x : Xfer) (y : OutBeat), exec (c d) s = .next t ∧ s.SameMemory t
      ∧ o.id = s.blk.opNo ∧ o.d = d ∧ o.role = .main ∧ o.opn = true ∧ o.n = 0 ∧ o.total = d.nrows
      ∧ x.tn = s.blk.tnNo ∧ x.op = s.blk.opNo ∧ x.store = (d.opc == 0x11) ∧ x.order = some s.blk.nextOrder ∧ x.cfirst = d.start
      ∧ x.suspended = none ∧ x.aborting = none ∧ x.orphan = false ∧ x.delivered = false
      ∧ y.endpt = 9 ∧ y.port = 3 ∧ y.cmd = some s.blk.tnNo ∧ y.beat.qen = 0
      ∧ y.beat.sb = commandSb o (d.opc == 0x11) false s.blk.tnNo d.start (shUnits (s.blk.tile d.slot).shape)
      ∧ (∀ k, t.blk.tile k = if k = d.slot ∧ d.opc = 0x10 then (s.blk.tile k).issued 0 false s.blk.stamp else s.blk.tile k)
      ∧ Only [K.ANISE_SHARED] [] { b.enqueue d.port d.req s.blk.opNo with
          ops := s.blk.ops ++ [o], opNo := s.blk.opNo + 1, tiles := t.blk.tiles, seen := t.blk.seen, xfers := s.blk.xfers ++ [x],
          outs := s.blk.outs ++ [y], tnNo := (s.blk.tnNo + 1) % 65536 } t.blk

/-- The release of a `TROUTE`, `TMERGE` or `TRETURN` makes it active in the merge unit while fewer than eight are and no active one has
its `OPID`; an accumulating `TMERGE` also starts the preload of the rows that were valid (08_route_merge.md R177, R184). The model's
choice: log entry 52. -/
def Obligations.MergeOperationsStart : Prop :=
  ∀ (s : State) (d : Desc) (c : Desc → Instr),
    (c, d.opc) ∈ ([(.troute, 0x31), (.tmerge, 0x32), (.treturn, 0x33)] : List ((Desc → Instr) × Nat)) →
    isOpenDesc d = true → s.blk.Issues s.mem d → s.blk.Calm → emptyDesc d = false → s.blk.shapeCheck d = none →
    (s.blk.requester d.port d.req).queue.length < 8 → (s.blk.requester d.accPort d.req).queue.length < 8 → d.accPort ≠ d.port →
    s.blk.sems.length < 8 → (∀ m ∈ s.blk.sems, m.op ≠ s.blk.opNo ∧ ∀ p, s.blk.op? m.op = some p → p.d.opid ≠ d.opid) →
    s.blk.AllActive →
    let pre := ((List.range d.nrows).filter (fun i => (s.blk.tile d.slot).rowValid.getLsbD (d.start + i))).length
    let loads := d.opc = 0x32 ∧ d.opf = true ∧ pre ≠ 0
    let mask := if d.opc = 0x32 then rowMask d.start d.nrows else 0
    ∃ (t : State) (o : Op) (m : SemOp) (ps : List Op), exec (c d) s = .next t ∧ s.SameMemory t
      ∧ t.blk.ops = s.blk.ops ++ o :: ps ∧ o.id = s.blk.opNo ∧ o.d = d ∧ o.role = .main ∧ o.opn = true
      ∧ (loads → ∃ p, ps = [p] ∧ p.id = s.blk.opNo + 1 ∧ p.role = .preload ∧ p.idx = o.id ∧ p.d.port = d.accPort ∧ p.total = pre)
      ∧ (¬loads → ps = [])
      ∧ t.blk.sems = s.blk.sems ++ [m] ∧ m.op = s.blk.opNo ∧ m.live = true ∧ m.closed = [] ∧ m.closedAll = false ∧ m.drops = []
      ∧ (d.opc = 0x32 → m.rows.map (fun r => (r.slot, r.row)) = (List.range d.nrows).map (fun i => (d.slot, d.start + i)))
      ∧ (d.opc ≠ 0x32 → m.rows = [])
      ∧ (∀ k, k ∉ checkWrites d → t.blk.tile k = s.blk.tile k)
      ∧ (d.opc = 0x32 → t.blk.tile d.slot = (s.blk.tile d.slot).issued mask true s.blk.stamp)
      ∧ Only [K.ANISE_SHARED] [] { s.blk.passed s.mem d with
          ops := t.blk.ops, opNo := t.blk.opNo, tiles := t.blk.tiles, seen := t.blk.seen, sems := t.blk.sems, reqs := t.blk.reqs } t.blk

/-- A released `TSAVE` or `TREST` waits in its queue while the engine is busy; the free engine takes the one that heads its queue: a save
takes the list of its rows, a restore makes every slot of its context dead, and the first row transfer of the image, under the engine's
own operation, becomes active; a save reads the tile status table over the service matrix, which must be free for it (15_states_power.md
R366 to R368; 05_ports.md R120). The model's choice: log entries 25, 26 and 52. -/
def Obligations.SaveAndRestoreDescriptorsStart : Prop :=
  ∀ (s : State) (d : Desc) (c : Desc → Instr), (c, d.opc) ∈ ([(.tsave, 0x60), (.trest, 0x61)] : List ((Desc → Instr) × Nat)) →
    isOpenDesc d = true → s.blk.Issues s.mem d → s.blk.Calm → (s.blk.requester d.port d.req).queue.length < 8 →
    let b := s.blk.passed s.mem d
    let slots := s.blk.ctxSlots d.ctx
    let heads := slots.map (fun k => (k, (s.blk.tile k).header (k % 64)))
    let size := roundUp (saveSize heads (saveRange d.opf heads).2) 1024
    (s.blk.sr.phase ≠ 0 → ∃ (t : State) (o : Op), exec (c d) s = .next t ∧ s.SameMemory t ∧ o.id = s.blk.opNo ∧ o.d = d
      ∧ Only [K.ANISE_SHARED] [] { b.enqueue d.port d.req s.blk.opNo with
          ops := s.blk.ops ++ [o], opNo := s.blk.opNo + 1 } t.blk)
    ∧ (s.blk.sr.phase = 0 → s.blk.Untangled → (s.blk.requester d.port d.req).queue = [] →
        (d.opc = 0x60 → size ≤ d.limit ∧ s.blk.engineFree 7 = true) →
      ∃ (t : State) (o p : Op) (x : Xfer), exec (c d) s = .next t ∧ s.SameMemory t ∧ o.id = s.blk.opNo ∧ o.d = d
        ∧ t.blk.ops = s.blk.ops ++ [o, p] ∧ p.id = s.blk.opNo + 1 ∧ p.role = .image ∧ p.d.opc = d.opc ∧ (d.opc = 0x61 → p.total = 1)
        ∧ t.blk.xfers = [x] ∧ x.op = p.id ∧ x.store = (d.opc == 0x60) ∧ t.blk.sr.parts = 1
        ∧ t.blk.reg K.SR_STATUS = 2 ∧ t.blk.sr.phase = 2 ∧ t.blk.sr.isSave = (d.opc == 0x60) ∧ t.blk.sr.ctx = d.ctx
        ∧ t.blk.sr.base = d.base ∧ t.blk.sr.limit = d.limit ∧ t.blk.sr.op = some s.blk.opNo ∧ t.blk.sr.stamp = s.blk.stamp
        ∧ (d.opc = 0x60 → t.blk.tiles = s.blk.tiles ∧ t.blk.sr.heads = heads
          ∧ t.blk.sr.todo = slots.flatMap (fun k => (validRows (s.blk.tile k).rowValid).map (fun r => (k, r))))
        ∧ (d.opc = 0x61 → ∀ k, ((t.blk.tile k).inUse = true ↔ (s.blk.tile k).inUse = true ∧ ¬(64 * d.ctx ≤ k ∧ k < 64 * d.ctx + 64))
          ∧ (¬(64 * d.ctx ≤ k ∧ k < 64 * d.ctx + 64) → t.blk.tile k = s.blk.tile k)))

/-- An operation of no row is counted and does nothing; one that finds its queue full, or fails a shape check, is suppressed, counted and
entered; so is a scheduled descriptor that is not yet in the issue queue, or reads a row that would hold, and the tile that it writes is
damaged (03_tile_registers.md R78, R79, R84; 06_sumac.md R138; 02_tick.md R44). While the schedule thread issues nothing (ticks stand or
are held, `TEND` has ended the issue, or the state is Draining), no descriptor does anything (10_descriptors.md R249; 01_boundary.md R18;
15_states_power.md R352). The dependency check of a scheduled descriptor raises `HOLD_OUT` when the descriptor is not yet in the issue
queue, which is counted, or reads a row that is not valid; else it raises nothing (02_tick.md R42; 11_sequencer.md R270). The schedule
thread brings one descriptor into its queue of 128; a full queue takes none (11_sequencer.md R269). The model's choice: log entries 8, 16,
52, 64, 88 and 89. -/
def Obligations.IssueChecksSuppressOrHold : Prop :=
  (∀ (s : State) (d : Desc) (c : Desc → Instr),
      (c, d.opc) ∈ ([(.tfeed, 0x20), (.tfeedt, 0x21), (.ttake, 0x22), (.tmove, 0x40), (.tconv, 0x41), (.tsend, 0x50), (.trecv, 0x51),
        (.tld, 0x10), (.tst, 0x11)] : List ((Desc → Instr) × Nat)) → s.blk.Calm →
      let b := s.blk.passed s.mem d
      let idx := s.blk.issueIdx s.mem d
      let sup (t : State) : Blk := { b with seen := t.blk.seen, sched := { b.sched with suppressed := idx :: b.sched.suppressed } }
      (s.blk.Issues s.mem d → emptyDesc d = true → ∃ t, exec (c d) s = .next t ∧ s.SameMemory t
        ∧ t.blk = { b.count K.EMPTY_OPS with seen := t.blk.seen } ∧ (d.opc ≠ 0x22 → t.blk.seen = s.blk.seen))
      ∧ (s.blk.Issues s.mem d → emptyDesc d = false → isOpenDesc d = true → 8 ≤ (s.blk.requester d.port d.req).queue.length →
        ∃ t, exec (c d) s = .next t ∧ s.SameMemory t ∧ t.blk.Entered 0x0403 1 ((16 * d.port + d.req) % 256)
          ∧ t.blk.reg K.OPEN_QUEUE_FULL = min (s.blk.reg K.OPEN_QUEUE_FULL + 1) 0xFFFFFFFF ∧ Only [K.OPEN_QUEUE_FULL] [] (sup t) t.blk)
      ∧ (∀ cause slot freq, s.blk.Issues s.mem d → emptyDesc d = false →
        (isOpenDesc d = true → (s.blk.requester d.port d.req).queue.length < 8) → s.blk.shapeCheck d = some (cause, slot, freq) →
        ∃ t, exec (c d) s = .next t ∧ s.SameMemory t ∧ t.blk.Entered 0x0201 1 (slot % 256)
          ∧ t.blk.reg K.SHAPE_FAULTS = min (s.blk.reg K.SHAPE_FAULTS + 1) 0xFFFFFFFF
          ∧ t.blk.recAt K.SHAPE_FAULT_LAST = leBytes 8 s.blk.stamp.toNat ++ leBytes 4 (s.blk.tile slot).shape ++ leBytes 4 freq
              ++ leBytes 2 slot ++ [BitVec.ofNat 8 d.opc, BitVec.ofNat 8 cause] ++ List.replicate 12 0
          ∧ Only [K.SHAPE_FAULTS] [K.SHAPE_FAULT_LAST] (sup t) t.blk)
      ∧ (s.blk.issuing = true → isScheduled d = true →
        (b.missing s.mem idx d = true ∨ ∃ i, s.blk.placeOf s.mem d = some i ∧ s.blk.sched.next + s.blk.sched.queue.length ≤ i) →
        ∃ t, exec (c d) s = .next t ∧ s.SameMemory t
          ∧ (s.blk.sems = [] → t.blk.newest = (0x0105, 2, (match slotWritten d with | some w => w | none => t.blk.newest.2.2) % 256))
          ∧ (∀ w, slotWritten d = some w → (s.blk.tile w).inUse = true → (t.blk.tile w).state = .damaged)
          ∧ (slotWritten d = none → d.rgrp = 0 → ∀ k, t.blk.tile k = s.blk.tile k) ∧ bit t.blk.flt.out 2 = true
          ∧ t.blk.reg K.LATE_HOLDS = min (s.blk.reg K.LATE_HOLDS + 1) 0xFFFFFFFF ∧ t.blk.sched.suppressed = idx :: s.blk.sched.suppressed
          ∧ t.blk.opNo = s.blk.opNo ∧ t.blk.writes = s.blk.writes))
  ∧ (∀ (s : State) (d : Desc) (c : Desc → Instr),
      c ∈ ([.tcfg, .trel, .tcancel, .tld, .tst, .tfeed, .tfeedt, .ttake, .tgather, .troute, .tmerge, .treturn, .tmove, .tconv, .tsend, .trecv,
        .tsave, .trest, .pwr, .mark, .tend] : List (Desc → Instr)) →
      s.blk.Calm → (s.blk.moving = false ∨ s.blk.sched.ended = true ∨ s.blk.lc = .draining) → exec (c d) s = .next s)
  ∧ (∀ (s : State) (idx : Nat) (d : Desc), s.blk.Calm → s.blk.moving = true → s.blk.sched.on = true → s.blk.replayQ = [] →
      s.mem.desc (s.blk.reg K.PROG_NOW) idx = some d → isScheduled d = true → s.blk.sched.checked ≤ idx →
      let entered := idx < s.blk.sched.next + s.blk.sched.queue.length
      let miss := s.blk.missing s.mem idx d = true
      ∃ t, exec (.dependencyCheck idx) s = .next t ∧ s.SameMemory t ∧ t.blk.sched.checked = idx + 1
        ∧ (entered → ¬miss → t.blk.tick.holdOut = none) ∧ (¬entered ∨ miss → t.blk.tick.holdOut = some s.blk.tick.wall ∧ t.blk.holdCauses = 1)
        ∧ t.blk.reg K.ISSUE_LAGS = (if entered then s.blk.reg K.ISSUE_LAGS else min (s.blk.reg K.ISSUE_LAGS + 1) 0xFFFFFFFF)
        ∧ Only [K.ISSUE_LAGS] [] { s.blk with
            sched := { s.blk.sched with
              checked := idx + 1, leadMin := t.blk.sched.leadMin, waiting := t.blk.sched.waiting, lagging := t.blk.sched.lagging },
            tick := { s.blk.tick with
              holdOut := t.blk.tick.holdOut, netFault := t.blk.tick.netFault, holdSeen := t.blk.tick.holdSeen } } t.blk)
  ∧ (∀ s : State, s.blk.Calm → s.blk.sched.on = true → s.blk.lc = .armed ∨ s.blk.ticking = true →
      exec .issueQueueFill s = s.becomes (if s.blk.sched.queue.length < 128 then
        { s.blk with sched := { s.blk.sched with queue := s.blk.sched.queue ++ [s.blk.tick.wall] } } else s.blk))

/-! ### Accesses of the ports -/

/-- A scheduled read access of a `TFEED` sends its row to the endpoint: the bytes of the quarters it reads as stored, six cycles on, with
the stamp of its slot; the operation makes its next access, and after its last waits for the beat to arrive (05_ports.md R116, R117, R123,
R129; 02_tick.md R50). Every row beat of a `TSEND` carries the link header: the channel, the row number and six zeros (10_descriptors.md
R247). In each round on its port the `TGATHER` that has the queue takes one index from staging into a free entry, a fault where the index
names no live row of its range, and makes one transfer: the index row, whose elements fill staging under ascending numbers; or an entry,
whose row goes to `SE-G` with the gather header, or stays in the queue until its turn comes. An index fault delivers zeros, marks both
flags, and is counted only (08_route_merge.md R172 to R176; 03_tile_registers.md R72). An entry of the gather queue is free again when its
row has been delivered on `SE-G`; the `TGATHER` completes with the row of its last index (08_route_merge.md R174, R176). The model's
choice: log entries 20 and 50. -/
def Obligations.ScheduledReadSendsTheStoredRow : Prop :=
  (∀ (s : State) (id : Nat) (o : Op), s.blk.op? id = some o → o.opn = false → s.blk.moving = true → o.d.opc = 0x20 → o.taken = false →
      s.blk.fenced o.d.port = false → o.srcShape = (s.blk.seenTile o.d.slot).shape → shapeOk o.srcShape = true → s.mem.marks = [] →
      let row := accessRow o.d o.srcShape o.n
      let qs := accessQuarters o.d o.srcShape o.n
      s.blk.rowRead o.d.slot row = .stored → s.blk.active o.d.port = true → s.blk.active (8 + s.blk.groupOf o.d.slot row) = true →
      ∃ (t : State) (x : OutBeat), exec (.scheduledReadAccess id true {} []) s = .next t ∧ s.SameMemory t
        ∧ x.endpt = o.d.endpt ∧ x.port = o.d.port ∧ x.op = id ∧ x.due = s.blk.tick.beat + 6 ∧ x.opn = false
        ∧ x.beat.stamp = o.schedStamp o.srcShape ∧ x.beat.qen = BitVec.ofNat 4 (qenOf qs)
        ∧ (∀ i, i < shRB o.srcShape → i / 256 ∈ qs → byteAt x.beat.data i = s.mem.rowByte s.blk o.d.slot row i)
        ∧ t.blk.op? id = some { o with n := o.n + 1, taken := decide (o.total ≤ o.n + 1) }
        ∧ Only [] [] { s.blk with ops := t.blk.ops, outs := s.blk.outs ++ [x] } t.blk)
  ∧ (∀ (s : State) (p : Nat) (o : Op) (c : Cand), s.blk.Calm → s.blk.moving = true → s.blk.op? o.id = some o → o.opn = true → o.role = .main →
      o.d.opc = 0x50 → o.d.port = p → p < 6 → s.blk.AloneOn s.mem p [] c → c.op = o.id → c.offer = none → o.taken = false →
      o.srcShape = (s.blk.seenTile o.d.slot).shape → shapeOk o.srcShape = true → s.mem.marks = [] → s.blk.active p = true →
      let row := accessRow o.d o.srcShape o.n
      let qs := accessQuarters o.d o.srcShape o.n
      s.blk.rowRead o.d.slot row = .stored → s.blk.active (8 + s.blk.groupOf o.d.slot row) = true →
      ∃ (t : State) (x : OutBeat), exec (.sumacRound p [] [] []) s = .next t ∧ s.SameMemory t
        ∧ t.blk.outs = s.blk.outs ++ [x] ∧ x.endpt = o.d.endpt ∧ x.port = p ∧ x.op = o.id ∧ x.due = s.blk.tick.wall + 6 ∧ x.opn = true
        ∧ x.beat.qen = BitVec.ofNat 4 (qenOf qs)
        ∧ fieldAt x.beat.sb 96 1 = o.d.chan % 256 ∧ fieldAt x.beat.sb 97 1 = row % 256 ∧ fieldAt x.beat.sb 98 6 = 0
        ∧ (∀ i, i < 76 → byteAt x.beat.sb i = s.mem.sbByte s.blk o.d.slot row i)
        ∧ (∀ i, i < shRB o.srcShape → i / 256 ∈ qs → byteAt x.beat.data i = s.mem.rowByte s.blk o.d.slot row i)
        ∧ t.blk.op? o.id = some { o with n := o.n + 1, taken := decide (o.total ≤ o.n + 1) }
        ∧ t.blk.tiles = s.blk.tiles ∧ t.blk.regs = s.blk.regs ∧ t.blk.recs = s.blk.recs)
  ∧ (∀ (s : State) (p : Nat) (o : Op) (c : Cand), s.blk.Calm → s.blk.moving = true → s.blk.op? o.id = some o →
      s.blk.ops.filter (fun q => q.d.opc == 0x30) = [o] → o.opn = true → o.role = .main → o.d.opc = 0x30 → o.d.port = p → p < 6 →
      s.blk.AloneOn s.mem p [] c → c.op = o.id → s.blk.active p = true → s.mem.marks = [] →
      let b := s.blk.openRound p []
      let src (i : Nat) : Tile := s.blk.seenTile (o.d.srcBase + i / 64)
      let ran (t : State) : Prop := exec (.sumacRound p [] [] []) s = .next t ∧ s.SameMemory t ∧ t.blk.tiles = s.blk.tiles
        ∧ t.blk.recs = s.blk.recs ∧ (t.blk.requester p c.id).aging = 0
        ∧ Tab.get (fun _ => 0) t.blk.sched.grants p = Tab.get (fun _ => 0) s.blk.sched.grants p + c.qs.length
      (∀ k i rest, s.blk.gStaged = (k, i) :: rest → s.blk.gather.length < 32 → b.gStaged = rest ∧ b.gather = s.blk.gather ++
        [{ seq := k, idx := i, fault := decide (o.d.srcTiles ≤ i / 64) || !(src i).inUse || decide ((src i).live ≤ i % 64) }])
      ∧ (s.blk.gStaged = [] ∨ 32 ≤ s.blk.gather.length → b.gStaged = s.blk.gStaged ∧ b.gather = s.blk.gather)
      ∧ (let per := shRB o.srcShape / 2
        let row := (o.d.ifirst + b.gNext) / per
        let e0 := (o.d.ifirst + b.gNext) % per
        let n := min (per - e0) (o.total - b.gNext)
        c.pick = 0 → o.srcShape = (s.blk.seenTile o.d.slot).shape → shapeOk o.srcShape = true → shRB o.srcShape % 2 = 0 → 0 < per →
        s.blk.rowRead o.d.slot row = .stored → s.blk.active (8 + s.blk.groupOf o.d.slot row) = true →
        ∃ t, ran t ∧ t.blk.regs = s.blk.regs ∧ t.blk.gather = b.gather ∧ t.blk.outs = s.blk.outs ∧ t.blk.op? o.id = some o
          ∧ t.blk.gNext = b.gNext + n ∧ t.blk.gStaged = (List.range n).map (fun i => (b.gNext + i,
            (s.mem.rowByte s.blk o.d.slot row (2 * (e0 + i))).toNat + 256 * (s.mem.rowByte s.blk o.d.slot row (2 * (e0 + i) + 1)).toNat)))
      ∧ (∀ e, c.pick = e.seq + 1 → b.gather.find? (fun y => y.seq == e.seq) = some e → e.sent = false →
        (∀ y ∈ b.gather, y.sent = false → y.beat = none) →
        let r := e.idx % 64
        let slot := o.d.srcBase + e.idx / 64
        let sent := o.d.opf = false ∨ b.gather.find? (fun y => !y.sent) = some e
        let header (bt : Beat) (fault : Nat) : Prop := fieldAt bt.sb 96 2 = o.d.opid % 65536 ∧ fieldAt bt.sb 98 2 = e.seq % 65536
          ∧ fieldAt bt.sb 100 1 = (if e.seq + 1 = o.d.nidx then 1 else 0) + fault ∧ fieldAt bt.sb 101 3 = 0 ∧ bt.stamp = s.blk.stamp
        let queued (t : State) (bt : Beat) : Prop := t.blk.gStaged = b.gStaged ∧ t.blk.gNext = b.gNext
          ∧ t.blk.gather = b.gather.map (fun y : GEntry => if y.seq = e.seq then { y with beat := some bt, sent := decide sent } else y)
          ∧ (sent → ∃ x : OutBeat, t.blk.outs = s.blk.outs ++ [x] ∧ x.endpt = 3 ∧ x.port = p ∧ x.op = o.id ∧ x.beat = bt
            ∧ x.due = s.blk.tick.wall + 6 ∧ x.seq = some e.seq ∧ x.cmd = none ∧ x.slot = o.d.slot ∧ x.opn = true)
          ∧ (¬sent → t.blk.outs = s.blk.outs) ∧ t.blk.op? o.id = some { o with n := o.n + 1, taken := decide (o.total ≤ o.n + 1) }
        (e.fault = true ∨ (src e.idx).inUse = false → ∃ (t : State) (bt : Beat), ran t ∧ queued t bt ∧ header bt 2
          ∧ (∀ i, byteAt bt.data i = 0) ∧ (∀ i, i < 96 → byteAt bt.sb i = if i = 82 then 0x44 else 0) ∧ (∀ i, 104 ≤ i → byteAt bt.sb i = 0)
          ∧ t.blk.regs = (s.blk.setReg K.GATHER_INDEX_FAULTS (min (s.blk.reg K.GATHER_INDEX_FAULTS + 1) 0xFFFFFFFF)).regs)
        ∧ (e.fault = false → (src e.idx).inUse = true → shapeOk (src e.idx).shape = true → s.blk.rowRead slot r = .stored →
          s.blk.active (8 + s.blk.groupOf slot r) = true → ∃ (t : State) (bt : Beat), ran t ∧ queued t bt ∧ header bt 0
          ∧ bt.qen = BitVec.ofNat 4 (qenOf (List.range (shQuarters (src e.idx).shape))) ∧ t.blk.regs = s.blk.regs
          ∧ (∀ i, i < shRB (src e.idx).shape → byteAt bt.data i = s.mem.rowByte s.blk slot r i)
          ∧ ∀ i, i < 76 → byteAt bt.sb i = s.mem.sbByte s.blk slot r i)))
  ∧ (∀ (s : State) (x : OutBeat) (o : Op) (k : Nat), s.blk.oldestOut 3 = some x → s.blk.busLow 3 = false → s.blk.Calm → x.cmd = none →
      x.seq = some k → x.endpt = 3 → s.blk.op? x.op = some o → s.blk.ops.filter (fun q => q.d.opc == 0x30) = [o] →
      (∀ y ∈ s.blk.gather, y.sent = false → y.beat = none) →
      let left := s.blk.gather.filter (fun y => y.seq != k)
      let done := o.taken = true ∧ left = [] ∧ s.blk.gStaged = [] ∧ o.total ≤ s.blk.gNext
      exec (.openReadDeliver 3 false) s = .next s
      ∧ ∃ t, exec (.openReadDeliver 3 true) s = .next t ∧ s.SameMemory t ∧ t.blk.gather = left
        ∧ Tab.get (fun _ => ({} : Beat)) t.blk.buses 3 = x.beat ∧ t.blk.tiles = s.blk.tiles ∧ t.blk.regs = s.blk.regs ∧ t.blk.recs = s.blk.recs
        ∧ (¬done → t.blk.ops = s.blk.ops ∧ t.blk.gStaged = s.blk.gStaged ∧ t.blk.gNext = s.blk.gNext ∧ t.blk.outs = dropOut x s.blk.outs)
        ∧ (done → t.blk.op? o.id = none ∧ t.blk.gStaged = [] ∧ t.blk.gNext = 0))

/-- A scheduled take of a `TTAKE` puts its beat into the write path, nine cycles from the banks; with no `VALID` the row is written as
zeros with `POISON`, counted and entered with class 2; a fenced port carries nothing, and the row stays not written. The sideband to be
stored has the stamp of the slot, the beat's tag, the tile's epoch and, without conversion, the beat's scales and scale slot
(03_tile_registers.md R66; 05_ports.md R116, R123, R132, R133). A scheduled read of the loop path feeds one write of the same row,
fourteen cycles from the banks: a `TMOVE`, or a `TCONV` whose destination needs no conversion, writes what it read; a converting one
writes with the scale slot of its destination. A write port that is not Active misses the beat, which is entered and written as poison; a
fenced one leaves the row not written (05_ports.md R119, R123, R133; 03_tile_registers.md R66; 15_states_power.md R361). The model's
choice: log entries 8, 14 and 50. -/
def Obligations.ScheduledTakeEntersTheWritePath : Prop :=
  (∀ (s : State) (id : Nat) (o : Op), s.blk.op? id = some o → o.opn = false → s.blk.moving = true → o.d.opc = 0x22 → o.taken = false →
      let row := accessRow o.d o.dstShape o.n
      (s.blk.fenced o.d.port = true → exec (.scheduledWriteTake id none false) s =
        s.becomes ((s.blk.setOp { o with skipped := row :: o.skipped }).advanceOp id)) ∧
     (s.blk.fenced o.d.port = false → s.blk.active o.d.port = true →
      let path (t : State) (w : RowWrite) : Prop :=
        w.op = id ∧ w.kind = .row ∧ w.slot = o.d.slot ∧ w.row = row ∧ w.gen = (o.dests.head?.getD (0, 0)).2 ∧ w.wallDue = false
          ∧ w.quarters = accessQuarters o.d o.dstShape o.n ∧ w.due = s.blk.tick.beat + 9 ∧ w.invQ = [] ∧ w.invSb = false
          ∧ w.stamp = o.schedStamp o.dstShape
          ∧ (∃ o1, t.blk.op? id = some o1 ∧ o1.n = o.n + 1 ∧ o1.taken = decide (o.total ≤ o.n + 1))
      (∀ bt : Beat, bt.stamp = o.schedStamp o.dstShape → s.blk.GoodBeat bt (takeQuarters o) → o.poison = [] →
        ∃ (t : State) (w : RowWrite), exec (.scheduledWriteTake id (some bt) false) s = .next t ∧ s.SameMemory t ∧ path t w
          ∧ (∃ scales sslot, StoredSideband w.sb scales (o.schedStamp o.dstShape) (fieldAt bt.sb 72 4 % 2 ^ 28) ((s.blk.tile o.d.slot).epoch % 65536)
              sslot 1
            ∧ (converts 0x22 (shFmt o.dstShape) = false → sslot = fieldAt bt.sb 83 2 % 4096 ∧ ∀ i, i < 64 → byteAt scales i = byteAt bt.sb i)
            ∧ (converts 0x22 (shFmt o.dstShape) = true → sslot = (s.blk.tile o.d.slot).scaleSlot % 4096))
          ∧ (converts 0x22 (shFmt o.dstShape) = false → ∀ i, i < 1024 → i / 256 ∈ w.quarters → byteAt w.payload i = byteAt bt.data i)
          ∧ Only [K.SB_RSVD_NZ, K.NONFINITE_IN, K.MX_CLAMPS] [] { s.blk with
              ops := t.blk.ops, writes := s.blk.writes ++ [w], wNo := s.blk.wNo + 1 } t.blk)
      ∧ ∃ (t : State) (w : RowWrite), exec (.scheduledWriteTake id none false) s = .next t ∧ s.SameMemory t ∧ path t w
          ∧ (byteAt w.sb 82).getLsbD 1 = true ∧ (∀ i, byteAt w.payload i = 0 ∨ converts 0x22 (shFmt o.dstShape) = true)
          ∧ t.blk.Entered 0x0302 2 (o.d.endpt % 256) ∧ t.blk.reg K.MISSED_BEATS = min (s.blk.reg K.MISSED_BEATS + 1) 0xFFFFFFFF
          ∧ t.blk.recAt K.EP_FAULT_LAST = epFaultRecord s.blk.stamp o.d.endpt o.d.port 2 0
          ∧ Only [K.MISSED_BEATS, K.SB_RSVD_NZ, K.NONFINITE_IN, K.MX_CLAMPS] [K.EP_FAULT_LAST] { s.blk with
              ops := t.blk.ops, writes := s.blk.writes ++ [w], wNo := s.blk.wNo + 1 } t.blk))
  ∧ (∀ (s : State) (id : Nat) (o : Op), s.blk.op? id = some o → o.opn = false → s.blk.moving = true → isLoop o.d.opc = true → o.taken = false →
      s.blk.fenced o.d.port = false → o.srcShape = (s.blk.seenTile o.d.slot).shape → shapeOk o.srcShape = true → s.mem.marks = [] → s.blk.Calm →
      let row := accessRow o.d o.srcShape o.n
      let conv := converts o.d.opc (shFmt o.dstShape)
      s.blk.rowRead o.d.slot row = .stored → s.blk.active o.d.port = true → s.blk.active (8 + s.blk.groupOf o.d.slot row) = true →
      (s.blk.fenced o.d.wport = true → exec (.scheduledReadAccess id true {} []) s =
        s.becomes (((s.blk.setOp { o with skipped := row :: o.skipped }).advanceOp id).settle id))
      ∧ (s.blk.fenced o.d.wport = false →
        let lost := s.blk.active o.d.wport = false
        ∃ (t : State) (w : RowWrite), exec (.scheduledReadAccess id true {} []) s = .next t ∧ s.SameMemory t
          ∧ w.op = id ∧ w.kind = .row ∧ w.slot = o.d.dst ∧ w.row = row ∧ w.gen = (o.dests.head?.getD (0, 0)).2 ∧ w.wallDue = false
          ∧ w.due = s.blk.tick.beat + 14 ∧ w.invQ = [] ∧ w.invSb = false ∧ w.stamp = o.schedStamp o.srcShape
          ∧ w.completes = endsRow o.d o.srcShape o.n
          ∧ (∃ o1, t.blk.op? id = some o1 ∧ o1.n = o.n + 1 ∧ o1.taken = decide (o.total ≤ o.n + 1) ∧ (lost → row ∈ o1.poison))
          ∧ w.quarters = (if conv then loopQuarters o.srcShape o.dstShape o.d.qsplit (o.n % perRow o.srcShape o.d.qsplit)
              else if o.d.qsplit then accessQuarters o.d o.srcShape o.n else List.range (shQuarters o.dstShape))
          ∧ (conv = false → ¬lost → ∀ i, i < shRB o.srcShape → i / 256 ∈ accessQuarters o.d o.srcShape o.n →
            byteAt w.payload i = s.mem.rowByte s.blk o.d.slot row i)
          ∧ (conv = false → lost → ∀ i, byteAt w.payload i = 0)
          ∧ (o.poison = [] → sbPoison ((List.range 128).map (s.mem.sbByte s.blk o.d.slot row)) = false → (s.blk.seenTile o.d.slot).state ≠ .damaged →
            ∃ scales sslot, StoredSideband w.sb scales (o.schedStamp o.srcShape)
              (leVal ((List.range 4).map (fun i => s.mem.sbByte s.blk o.d.slot row (72 + i))) % 2 ^ 28)
              ((s.blk.tile o.d.dst).epoch % 65536) sslot (if lost then 3 else 1)
            ∧ (conv = false → ∀ i, i < 64 → byteAt scales i = s.mem.sbByte s.blk o.d.slot row i)
            ∧ (conv = true → sslot = (s.blk.tile o.d.dst).scaleSlot % 4096))
          ∧ (¬lost → Only [K.NONFINITE_IN, K.MX_CLAMPS] [] { s.blk with
              ops := t.blk.ops, writes := s.blk.writes ++ [w], wNo := s.blk.wNo + 1 } t.blk)
          ∧ (lost → t.blk.Entered 0x030B 2 (o.d.wport % 256) ∧ t.blk.reg K.MISSED_BEATS = min (s.blk.reg K.MISSED_BEATS + 1) 0xFFFFFFFF
            ∧ t.blk.reg K.PWR_ACCESS_FAULTS = min (s.blk.reg K.PWR_ACCESS_FAULTS + 1) 0xFFFFFFFF
            ∧ t.blk.recAt K.EP_FAULT_LAST = epFaultRecord s.blk.stamp 14 o.d.wport 2 0
            ∧ Only [K.NONFINITE_IN, K.MX_CLAMPS, K.MISSED_BEATS, K.PWR_ACCESS_FAULTS] [K.EP_FAULT_LAST, K.PWR_ACCESS_LAST] { s.blk with
              ops := t.blk.ops, writes := s.blk.writes ++ [w], wNo := s.blk.wNo + 1 } t.blk)))

/-- A row write that reaches the banks of its tile as configured stores the bytes of its quarters below the row length and its whole
sideband, with the tile's epoch as it stands now where the beat brings none, and no other byte of any memory; the last write of a row of a
row-commit operation makes its row valid. One whose tile has been configured anew stores nothing and is counted, one that meets an
uncorrectable error damages its tile, and one whose group is not Active stores nothing (04_banks.md R91, R96; 03_tile_registers.md R66,
R70, R71, R73; 08_route_merge.md R201). The model's choice: log entries 50 and 91. -/
def Obligations.RowWriteStoresItsRow : Prop :=
  ∀ (s : State) (w : RowWrite), s.blk.writes.find? (fun x => x.wid == w.wid) = some w → s.blk.Settled → s.blk.mx.waits = [] →
    s.blk.flt.trWait = [] →
    let x := s.blk.tile w.slot
    let live : Bool := s.blk.active (8 + s.blk.groupOf w.slot w.row)
    let tagged : Bool := w.kind == .sv || (s.blk.op? w.op).any (fun o => [0x10, 0x22, 0x32, 0x40, 0x41].contains o.d.opc)
    let commits : Bool := w.kind == .row && w.completes && (s.blk.op? w.op).any (fun o => !tileCommit o.d.opc)
    ((s.blk.tile w.slot).gen = w.gen → w.leaves = none → live = true → shapeOk (s.blk.tile w.slot).shape = true →
      s.blk.fourBanks w.slot w.row →
      ∃ t, exec (.rowWriteComplete ⟨w.wid, false⟩) s = .next t ∧ t.pending = s.pending ∧ RowsOnly s.blk [(w.slot, w.row)] s.mem t.mem
        ∧ (∀ i, i < shRB (s.blk.tile w.slot).shape → t.mem.rowByte s.blk w.slot w.row i =
            if i / 256 ∈ w.quarters then byteAt w.payload i else s.mem.rowByte s.blk w.slot w.row i)
        ∧ (∀ i, i < 128 → (i = 80 ∨ i = 81) ∧ tagged = true ∨ t.mem.sbByte s.blk w.slot w.row i = byteAt w.sb i)
        ∧ (tagged = true → t.mem.sbByte s.blk w.slot w.row 80 = BitVec.ofNat 8 x.epoch
          ∧ t.mem.sbByte s.blk w.slot w.row 81 = BitVec.ofNat 8 (x.epoch / 256))
        ∧ (t.blk.tile w.slot).rowValid = (if commits = true then x.rowValid ||| rowMask w.row 1 else x.rowValid)
        ∧ t.blk.writes = s.blk.writes.filter (fun x => x.wid != w.wid))
    ∧ ((s.blk.tile w.slot).gen = w.gen → w.leaves = none → live = false → w.kind = .row →
      (∀ o, s.blk.op? w.op = some o → o.opn = false) → (s.blk.op? w.op).isSome = true →
      ∃ (t : State) (o : Op), exec (.rowWriteComplete ⟨w.wid, false⟩) s = .next t ∧ s.SameMemory t ∧ s.blk.op? w.op = some o
        ∧ (t.blk.tile w.slot).rowValid = x.rowValid ∧ t.blk.writes = s.blk.writes.filter (fun x => x.wid != w.wid)
        ∧ t.blk.reg K.MISSED_BEATS = min (s.blk.reg K.MISSED_BEATS + 1) 0xFFFFFFFF
        ∧ t.blk.reg K.PWR_ACCESS_FAULTS = min (s.blk.reg K.PWR_ACCESS_FAULTS + 1) 0xFFFFFFFF)
    ∧ ((s.blk.tile w.slot).gen ≠ w.gen → ∃ t, exec (.rowWriteComplete ⟨w.wid, false⟩) s = .next t ∧ s.SameMemory t
        ∧ t.blk.reg K.STALE_BEATS = min (s.blk.reg K.STALE_BEATS + 1) 0xFFFFFFFF
        ∧ t.blk.writes = s.blk.writes.filter (fun x => x.wid != w.wid))
    ∧ ((s.blk.tile w.slot).gen = w.gen → w.gen % 2 = 0 → (s.blk.tile w.slot).inUse = true →
      ∃ t, exec (.rowWriteComplete ⟨w.wid, true⟩) s = .next t ∧ s.SameMemory t ∧ (t.blk.tile w.slot).state = .damaged
        ∧ t.blk.reg K.STALE_BEATS = min (s.blk.reg K.STALE_BEATS + 1) 0xFFFFFFFF
        ∧ t.blk.writes = s.blk.writes.filter (fun x => x.wid != w.wid))

/-- The commit of a tile-commit write (`TTAKE`, `TCONV`, `TMERGE`) whose rows have no overflow makes its rows valid and ends the
operation; with `OVF_RETRIES` = 0 an overflowed one takes the give-up commit: `UNRECOMP` is set, counted and entered (09_numerics.md R216,
R218, R222; 03_tile_registers.md R71). The model's choice: log entry 63. -/
def Obligations.TileCommitMakesRowsValid : Prop :=
  ∀ (s : State) (o : Op), s.blk.op? o.id = some o → o.d.opc ∈ [0x22, 0x32, 0x41] → s.blk.commitDue o = true → s.blk.Calm →
    (∀ p ∈ s.blk.ops, p.pendingOvf = none) → o.srcs = [] → o.dests = [(o.dest, (s.blk.tile o.dest).gen)] →
    let x := s.blk.tile o.dest
    let valid := x.rowValid ||| s.blk.commitMask o
    let all := rowMask 0 (shRows x.shape)
    let rest : TState := if valid = 0 then .empty else if valid &&& all = all then .committed else .part
    x.writers = 1 → x.state = .loading →
    (o.sums.overflow = false → ∃ t, exec (.tileCommit o.id) s = .next t ∧ s.SameMemory t ∧ t.blk.op? o.id = none
      ∧ (∀ k, t.blk.tile k = if k = o.dest then { x with
          rowValid := valid, writers := 0, state := rest, lastStamp := s.blk.stamp } else s.blk.tile k)
      ∧ t.blk.outs = s.blk.outs ∧ t.blk.writes = s.blk.writes ∧ t.blk.xfers = s.blk.xfers)
    ∧ (o.sums.overflow = true → s.blk.cfg K.OVF_RETRIES = 0 → ∃ t, exec (.tileCommit o.id) s = .next t ∧ s.SameMemory t
      ∧ t.blk.op? o.id = none ∧ (t.blk.tile o.dest).rowValid = valid ∧ (t.blk.tile o.dest).unrecomp = true
      ∧ (t.blk.tile o.dest).writers = 0 ∧ (t.blk.tile o.dest).state = rest
      ∧ t.blk.reg K.OVF_TILES = min (s.blk.reg K.OVF_TILES + 1) 0xFFFFFFFF
      ∧ t.blk.reg K.UNRECOMP_COMMITS = min (s.blk.reg K.UNRECOMP_COMMITS + 1) 0xFFFFFFFF
      ∧ t.blk.reg K.RECOMPUTES = s.blk.reg K.RECOMPUTES ∧ (∀ k, k ≠ o.dest → (t.blk.tile k).rowValid = (s.blk.tile k).rowValid))
    ∧ (∀ r, (s.blk.commitMask o).getLsbD r = true ↔ r < 64 ∧ if o.d.opc = 0x32 then (∃ m, s.blk.sems.find? (fun m => m.op == o.id) = some m
          ∧ ∃ y ∈ m.rows, y.row = r ∧ y.result.isSome = true)
        else o.d.start ≤ r ∧ r < o.d.start + o.d.nrows ∧ r ∉ o.skipped)

/-- A replay that fits into `RECOMP_RESERVE` starts: the overflowed write issues again with its exponent lowered by `OVF_STEP`, counted,
and its cycles are shifted to this one; one that does not fit takes the give-up commit: its rows become valid and `UNRECOMP` is set
(09_numerics.md R219 to R221). -/
def Obligations.ReplayStartsOrGivesUp : Prop :=
  ∀ (s : State) (o : Op), s.blk.replayReady = true → s.blk.replayQ = [o.id] → s.blk.op? o.id = some o → o.d.opc = 0x22 ∨ o.d.opc = 0x41 →
    let m := s.blk.groupOfOp s.mem o
    let span := groupSpan s.blk (fun k => (s.blk.tile k).shape) m
    (s.blk.tick.lcyc + span.2 ≤ s.blk.cfg K.TICK_LEN - s.blk.cfg K.GUARD →
      ∃ (t : State) (p : Op), exec .replayStart s = .next t ∧ s.SameMemory t ∧ t.blk.replayQ = [] ∧ t.blk.replayNow = some o.id
        ∧ t.blk.replayNext = s.blk.tick.lcyc + span.2 ∧ t.blk.op? o.id = some p ∧ p.role = .replay ∧ p.attempt = o.attempt + 1
        ∧ p.n = 0 ∧ p.taken = false ∧ p.base = o.d.slotCycle + (s.blk.tick.lcyc - span.1) ∧ p.sums = {} ∧ p.d = o.d
        ∧ p.sigma = clampInt (o.sigma - s.blk.cfg K.OVF_STEP) (-127) 127
        ∧ t.blk.reg K.RECOMPUTES = min (s.blk.reg K.RECOMPUTES + 1) 0xFFFFFFFF
        ∧ (∀ k, t.blk.tile k = if k = o.dest then (s.blk.tile k).issued 0 true s.blk.stamp else s.blk.tile k))
    ∧ (s.blk.cfg K.TICK_LEN - s.blk.cfg K.GUARD < s.blk.tick.lcyc + span.2 →
      ∃ t, exec .replayStart s = .next t ∧ s.SameMemory t ∧ t.blk.replayQ = [] ∧ t.blk.replayNow = none
        ∧ (t.blk.tile o.dest).unrecomp = true ∧ (t.blk.tile o.dest).rowValid = (s.blk.tile o.dest).rowValid ||| s.blk.commitMask o
        ∧ t.blk.reg K.UNRECOMP_COMMITS = min (s.blk.reg K.UNRECOMP_COMMITS + 1) 0xFFFFFFFF
        ∧ t.blk.reg K.RECOMPUTES = s.blk.reg K.RECOMPUTES)

/-! ### Open slots -/

/-- A round with one candidate grants it: an open `TFEED` that heads the only queue of its port reads its row as stored into its
endpoint's return buffer, six cycles on; its aging is cleared and its quarter positions are counted (06_sumac.md R140, R143, R144;
05_ports.md R127). Of two operations that need the same quarter positions the one that ranks before the other is granted; the other ages
by one, up to `AGE_MAX`; the hog count of the granted one goes up by one, and the other's starts anew; a count beyond `HOG_LIMIT` cuts the
requester off for `HOG_PENALTY` cycles, counted, flagged and entered with class 0 (06_sumac.md R142 to R145, R151). A candidate whose
biased deadline has passed is a deadline miss, once for its operation: counted for its port, recorded with its stamp, requester and biased
deadline, and entered with class 0; it is granted as any other (06_sumac.md R142, R144, R151). A round grants the open write that is the
only candidate: its beat enters the write path, nine cycles from the banks, with the stamp of the grant, the beat's tag, without
conversion its scales and scale slot, and the tile's epoch, for `TRECV` the beat's. A beat with a stamp at fault is discarded, counted and
entered with class 1, and its row is passed over (05_ports.md R123, R128, R132; 03_tile_registers.md R66; 10_descriptors.md R247). The
model's choice: log entries 20, 50 and 99. -/
def Obligations.RoundGrantsTheOneCandidate : Prop :=
  (∀ (s : State) (o : Op) (r : Requester), s.blk.Calm → s.blk.moving = true → s.blk.inGuard = false → s.blk.inExt = false →
      s.blk.sched.on = false → s.blk.ops = [o] → o.role = .main → o.opn = true → o.d.opc = 0x20 → o.taken = false → o.d.port < 4 →
      o.d.req < 14 → s.blk.reqs = [(16 * o.d.port + o.d.req, r)] → r.queue = [o.id] → r.cut = false → r.missed = true → o.releasedAt ≤ s.blk.tick.wall →
      s.blk.outs = [] → s.blk.fixed = [] → s.blk.withdrawn = [] → o.d.endpt ≠ 3 → o.d.endpt ≠ 15 → s.blk.epOut o.d.endpt = false →
      s.blk.fenced o.d.port = false → o.srcShape = (s.blk.seenTile o.d.slot).shape → shapeOk o.srcShape = true → s.mem.marks = [] →
      let row := accessRow o.d o.srcShape o.n
      let qs := accessQuarters o.d o.srcShape o.n
      s.blk.rowRead o.d.slot row = .stored → s.blk.active o.d.port = true → s.blk.active (8 + s.blk.groupOf o.d.slot row) = true →
      ∃ (t : State) (x : OutBeat), exec (.sumacRound o.d.port [] [] []) s = .next t ∧ s.SameMemory t
        ∧ t.blk.outs = [x] ∧ x.endpt = o.d.endpt ∧ x.port = o.d.port ∧ x.op = o.id ∧ x.due = s.blk.tick.wall + 6 ∧ x.opn = true
        ∧ x.beat.qen = BitVec.ofNat 4 (qenOf qs)
        ∧ (∀ i, i < shRB o.srcShape → i / 256 ∈ qs → byteAt x.beat.data i = s.mem.rowByte s.blk o.d.slot row i)
        ∧ t.blk.ops = [{ o with n := o.n + 1, taken := decide (o.total ≤ o.n + 1) }]
        ∧ (t.blk.requester o.d.port o.d.req).aging = 0 ∧ (t.blk.requester o.d.port o.d.req).queue = [o.id]
        ∧ Tab.get (fun _ => 0) t.blk.sched.grants o.d.port = Tab.get (fun _ => 0) s.blk.sched.grants o.d.port + qs.length
        ∧ t.blk.tiles = s.blk.tiles ∧ t.blk.regs = s.blk.regs ∧ t.blk.recs = s.blk.recs)
  ∧ (∀ (s : State) (p : Nat) (o l : Op), s.blk.QuietRound p [o.d.req, l.d.req] → s.mem.marks = [] → (s.blk.ops = [o, l] ∨ s.blk.ops = [l, o]) →
      s.blk.Feeds p o → s.blk.Feeds p l → o.d.req ≠ l.d.req → o.id ≠ l.id →
      (∀ i, i = o.d.req ∨ i = l.d.req → s.blk.overdue p i = false ∨ (s.blk.requester p i).missed = true) →
      (∃ q, q ∈ accessQuarters o.d o.srcShape o.n ∧ q ∈ accessQuarters l.d l.srcShape l.n) → s.blk.RanksBefore p o.d.req l.d.req →
      let r := s.blk.requester p o.d.req
      let hog := 0 < s.blk.cfg K.HOG_LIMIT ∧ s.blk.cfg K.HOG_LIMIT < r.hog + 1
      ∃ (t : State) (x : OutBeat), exec (.sumacRound p [] [] []) s = .next t ∧ s.SameMemory t
        ∧ t.blk.outs = [x] ∧ x.op = o.id ∧ x.endpt = o.d.endpt ∧ t.blk.op? l.id = some l
        ∧ t.blk.op? o.id = some { o with n := o.n + 1, taken := decide (o.total ≤ o.n + 1) }
        ∧ (let r' := t.blk.requester p o.d.req
          r'.aging = 0 ∧ r'.queue = r.queue
            ∧ (¬hog → r'.hog = r.hog + 1 ∧ r'.cut = false ∧ t.blk.regs = s.blk.regs ∧ t.blk.recs = s.blk.recs)
            ∧ (hog → r'.hog = 0 ∧ r'.cut = decide (0 < s.blk.cfg K.HOG_PENALTY)
              ∧ r'.penaltyEnd = s.blk.tick.wall + 1 + s.blk.cfg K.HOG_PENALTY ∧ t.blk.Entered 0x0402 0 (16 * p + o.d.req)
              ∧ fieldAt (t.blk.recAt K.HOG_CUTOFFS) (4 * p) 4 = min (fieldAt (s.blk.record K.HOG_CUTOFFS 24) (4 * p) 4 + 1) 0xFFFFFFFF
              ∧ bit (fieldAt (t.blk.recAt K.HOG_FLAGS) (2 * p) 2) o.d.req = true))
        ∧ (let r' := t.blk.requester p l.d.req
          r'.aging = min ((s.blk.requester p l.d.req).aging + 1) (s.blk.cfg K.AGE_MAX) ∧ r'.hog = 0 ∧ r'.cut = false
            ∧ r'.queue = (s.blk.requester p l.d.req).queue))
  ∧ (∀ (s : State) (p : Nat) (o : Op), s.blk.QuietRound p [o.d.req] → s.mem.marks = [] → s.blk.ops = [o] → s.blk.Feeds p o →
      s.blk.overdue p o.d.req = true → (s.blk.requester p o.d.req).missed = false →
      ∃ (t : State) (x : OutBeat), exec (.sumacRound p [] [] []) s = .next t ∧ s.SameMemory t ∧ t.blk.outs = [x] ∧ x.op = o.id
        ∧ (t.blk.requester p o.d.req).missed = true ∧ t.blk.Entered 0x0401 0 p
        ∧ fieldAt (t.blk.recAt K.DEADLINE_MISSES) (4 * p) 4 = min (fieldAt (s.blk.record K.DEADLINE_MISSES 24) (4 * p) 4 + 1) 0xFFFFFFFF
        ∧ t.blk.recAt K.SUMAC_MISS_LAST = leBytes 8 s.blk.stamp.toNat ++ [BitVec.ofNat 8 p, BitVec.ofNat 8 o.d.req]
          ++ leBytes 3 (s.blk.biased p o.d.req) ++ [0, 0, 0]
        ∧ (∀ k, k ∉ logRegs → t.blk.reg k = s.blk.reg k))
  ∧ (∀ (s : State) (p : Nat) (o : Op) (bt : Beat) (c : Cand), s.blk.Calm → s.blk.moving = true → s.blk.op? o.id = some o → o.opn = true →
      o.role = .main → o.d.port = p → p < 6 → o.d.opc = 0x10 ∨ o.d.opc = 0x22 ∨ o.d.opc = 0x51 →
      s.blk.AloneOn s.mem p [{ endpt := o.d.endpt, beat := bt }] c → c.op = o.id → c.offer = some bt → o.taken = false →
      let row := accessRow o.d o.dstShape o.n
      (s.blk.GoodBeat bt (takeQuarters o) → o.poison = [] →
        ∃ (t : State) (w : RowWrite), exec (.sumacRound p [{ endpt := o.d.endpt, beat := bt }] [] []) s = .next t ∧ s.SameMemory t
          ∧ t.blk.writes = s.blk.writes ++ [w] ∧ w.op = o.id ∧ w.kind = .row ∧ w.slot = o.d.slot ∧ w.row = row
          ∧ w.quarters = accessQuarters o.d o.dstShape o.n ∧ w.wallDue = true ∧ w.due = s.blk.tick.wall + 9 ∧ w.invQ = [] ∧ w.invSb = false
          ∧ (converts o.d.opc (shFmt o.dstShape) = false → ∀ i, i < 1024 → i / 256 ∈ w.quarters → byteAt w.payload i = byteAt bt.data i)
          ∧ (∃ scales sslot, StoredSideband w.sb scales (s.blk.stamp ||| BitVec.ofNat 64 (2 * accessQtr o.d o.dstShape o.n))
              (fieldAt bt.sb 72 4 % 2 ^ 28) (if o.d.opc = 0x51 then fieldAt bt.sb 80 2 else (s.blk.tile o.d.slot).epoch % 65536) sslot 1
            ∧ (converts o.d.opc (shFmt o.dstShape) = false → sslot = fieldAt bt.sb 83 2 % 4096
              ∧ ∀ i, i < 64 → byteAt scales i = byteAt bt.sb i)
            ∧ (converts o.d.opc (shFmt o.dstShape) = true → sslot = (s.blk.tile o.d.slot).scaleSlot % 4096))
          ∧ (∃ o1, t.blk.op? o.id = some o1 ∧ o1.n = o.n + 1 ∧ o1.taken = decide (o.total ≤ o.n + 1))
          ∧ (t.blk.requester p c.id).aging = 0
          ∧ Tab.get (fun _ => 0) t.blk.sched.grants p = Tab.get (fun _ => 0) s.blk.sched.grants p + c.qs.length
          ∧ t.blk.tiles = s.blk.tiles ∧ (∀ k, k ∉ [K.SB_RSVD_NZ, K.NONFINITE_IN, K.MX_CLAMPS] → t.blk.reg k = s.blk.reg k) ∧ t.blk.recs = s.blk.recs)
      ∧ (stampBad bt = false → s.blk.badStamp bt.stamp = true → o.n + 1 < o.total → o.d.endpt < 256 →
        ∃ t, exec (.sumacRound p [{ endpt := o.d.endpt, beat := bt }] [] []) s = .next t ∧ s.SameMemory t ∧ t.blk.writes = s.blk.writes
          ∧ t.blk.Entered 0x0305 1 o.d.endpt ∧ t.blk.reg K.BAD_STAMPS = min (s.blk.reg K.BAD_STAMPS + 1) 0xFFFFFFFF
          ∧ t.blk.recAt K.EP_FAULT_LAST = epFaultRecord s.blk.stamp o.d.endpt p 4 bt.qen.toNat
          ∧ (∃ o1, t.blk.op? o.id = some o1 ∧ o1.n = o.n + 1 ∧ o1.taken = false ∧ o1.skipped = row :: o.skipped)
          ∧ t.blk.tiles = s.blk.tiles))

/-- The end of a penalty lets its requester request again; the oldest beat of a return buffer leaves it for the endpoint bus when `READY`
is high, and a delivered command beat makes its transfer known (06_sumac.md R145; 05_ports.md R127; 07_rows_in_out.md R154). A departure
from the handshake of a write-side bus is counted in `EP_PROTO` and recorded; a withdrawn `VALID` is also entered with class 1
(05_ports.md R132; 07_rows_in_out.md R157; 08_route_merge.md R178; 10_descriptors.md R247). A bus whose ports are all Idle, or whose
endpoint is out, keeps `VALID` and `READY` low: none of this happens on it (15_states_power.md R359). An endpoint that does not take a
buffered beat in time loses the beats of its return buffer: counted, recorded, entered with class 1, and an open feed that loses its beat
fails (05_ports.md R132). The model's choice: log entries 8, 20 and 83. -/
def Obligations.BuffersHandshakesAndPenalties : Prop :=
  (∀ s : State,
      (∀ port id, (s.blk.requester port id).cut = true → exec (.hogPenaltyEnd port id) s =
        s.becomes (s.blk.setRequester port id { s.blk.requester port id with cut := false, penaltyEnd := 0 }))
      ∧ (∀ (e : Nat) (x : OutBeat), s.blk.oldestOut e = some x → s.blk.busLow e = false → s.blk.Calm → x.seq = none →
        (∀ o, s.blk.op? x.op = some o → o.d.opc ≠ 0x40 ∧ o.d.opc ≠ 0x51) →
        exec (.openReadDeliver e false) s = .next s
        ∧ ∃ t, exec (.openReadDeliver e true) s = .next t ∧ s.SameMemory t
          ∧ Tab.get (fun _ => ({} : Beat)) t.blk.buses x.endpt = x.beat
          ∧ (∀ tn, x.cmd = some tn → byteAt x.beat.sb 0 ≠ 3 → t.blk.xfers = s.blk.xfers.map (fun y : Xfer =>
              if y.tn = tn then { y with delivered := true } else y))
          ∧ (x.cmd = none → t.blk.xfers = s.blk.xfers)
          ∧ (∀ o, x.cmd = none → s.blk.op? x.op = some o → o.d.opc = 0x20 → (o.taken = false → t.blk.ops = s.blk.ops)
            ∧ (o.taken = true → s.blk.writes = [] → (dropOut x s.blk.outs).all (fun y => y.op != o.id) = true → t.blk.op? o.id = none))
          ∧ (x.cmd.isSome = true → t.blk.ops = s.blk.ops)
          ∧ t.blk.outs = dropOut x s.blk.outs ∧ t.blk.tiles = s.blk.tiles ∧ t.blk.regs = s.blk.regs ∧ t.blk.recs = s.blk.recs))
  ∧ (∀ (s : State) (e : Nat) (qen : BitVec 4) (bt : Beat),
      (s.blk.busLow e = true → ∀ c : Instr, c ∈ [.validWithdrawn e qen, .spuriousValid e qen, .unmatchedBeatDiscard e bt] → exec c s = .next s)
      ∧ (s.blk.ticking = true → s.blk.busLow e = false →
      let n := min (s.blk.reg K.EP_PROTO + 1) 0xFFFFFFFF
      (∃ t, exec (.validWithdrawn e qen) s = .next t ∧ s.SameMemory t ∧ t.blk.Entered 0x0306 1 (e % 256) ∧ t.blk.reg K.EP_PROTO = n
        ∧ t.blk.recAt K.EP_FAULT_LAST = epFaultRecord s.blk.stamp e (busPort e) 8 qen.toNat
        ∧ Only [K.EP_PROTO] [K.EP_FAULT_LAST] { s.blk with withdrawn := e :: s.blk.withdrawn.filter (fun x => x != e) } t.blk)
      ∧ exec (.spuriousValid e qen) s = s.becomes ((s.blk.setReg K.EP_PROTO n).setRec K.EP_FAULT_LAST
          (epFaultRecord s.blk.stamp e 0xFF 8 qen.toNat))
      ∧ (s.blk.unclaimed e bt = true → exec (.unmatchedBeatDiscard e bt) s = s.becomes ((s.blk.setReg K.EP_PROTO n).setRec
          K.EP_FAULT_LAST (epFaultRecord s.blk.stamp e 0xFF 8 bt.qen.toNat)))))
  ∧ (∀ (s : State) (e : Nat) (x : OutBeat) (o : Op), s.blk.ticking = true → s.blk.busDark e = false → s.blk.Calm →
      s.blk.outs.filter (fun y => y.opn && y.endpt == e) = [x] → s.blk.op? x.op = some o → o.d.opc = 0x20 → o.role = .main →
      o.dests = [] → o.srcs = [] → s.blk.xfers.all (fun y => y.op != o.id) = true →
      ∃ t, exec (.epReadyTimeout e) s = .next t ∧ s.SameMemory t ∧ t.blk.Entered 0x0307 1 (e % 256)
        ∧ t.blk.reg K.EP_TIMEOUTS = min (s.blk.reg K.EP_TIMEOUTS + 1) 0xFFFFFFFF
        ∧ t.blk.recAt K.EP_FAULT_LAST = epFaultRecord s.blk.stamp e x.port 9 x.beat.qen.toNat
        ∧ t.blk.op? o.id = none ∧ (∀ y ∈ t.blk.outs, ¬(y.opn = true ∧ y.endpt = e) ∧ y.op ≠ o.id)
        ∧ Only [K.EP_TIMEOUTS] [K.EP_FAULT_LAST] { s.blk with
            outs := t.blk.outs, ops := t.blk.ops, reqs := t.blk.reqs, writes := s.blk.writes.filter (fun w => w.op != o.id) } t.blk)

/-! ### Row transfers -/

/-- A fault beat suspends its transfer at the row it names: the fault is counted and recorded, `START_ROW` becomes that row, and the
transfer leaves the command order; a load with no write left in flight is no longer counted in `WRITERS`. While an abort is pending the
transfer is not suspended, but the row is kept for the abort's outcome. The resolution resumes it from that row, last in the command
order, with a resumption command beat; a terminal fault abandons it (07_rows_in_out.md R157, R158, R160, R161, R164, R169, R171). The
model's choice: log entries 8, 18 and 59. -/
def Obligations.FaultBeatsSuspendResumeOrAbandon : Prop :=
  ∀ (s : State) (tn : Nat) (x : Xfer) (o : Op), s.blk.Calm → s.blk.ticking = true → s.blk.busLow 8 = false → s.blk.Carries tn x o →
    let slot := o.d.slot
    let flying := s.blk.writes.any (fun w => w.op == o.id)
    let lands : Bool := x.store || flying
    let record (k kind cause : Nat) : List Byte := leBytes 8 s.blk.stamp.toNat ++ leBytes 2 tn
      ++ [BitVec.ofNat 8 k, BitVec.ofNat 8 kind, BitVec.ofNat 8 cause] ++ leBytes 2 slot ++ [BitVec.ofNat 8 o.d.opc]
    let now : Xfer := { x with lastBeat := s.blk.tick.wall }
    (∀ row cause, x.suspended = none → x.lowRow o ≤ row → row ≤ s.blk.highRow o x → row < o.rowEnd →
      ∃ t, exec (.rowFault tn row cause) s = .next t ∧ s.SameMemory t
        ∧ t.blk.reg K.ROW_FAULTS = min (s.blk.reg K.ROW_FAULTS + 1) 0xFFFFFFFF ∧ t.blk.recAt K.ROW_FAULT_LAST = record row 1 cause
        ∧ (∀ k, k ≠ slot → t.blk.tile k = s.blk.tile k) ∧ (t.blk.tile slot).startRow = row
        ∧ (t.blk.tile slot).rowValid = (s.blk.tile slot).rowValid
        ∧ (t.blk.tile slot).writers = (s.blk.tile slot).writers - (if lands = false ∧ o.counted = true then 1 else 0)
        ∧ (lands = true → t.blk.tile slot = { s.blk.tile slot with startRow := row })
        ∧ Only [K.ROW_FAULTS] [K.ROW_FAULT_LAST] { (s.blk.setOp { o with
            n := row - o.d.start, taken := true, counted := o.counted && lands }).setXfer
              { now with
                suspended := if x.aborting.isSome then none else some row,
                faultK := if x.aborting.isSome then some row else x.faultK, faulted := some row, order := none } with tiles := t.blk.tiles } t.blk)
    ∧ (∀ k cause, x.suspended = some k → x.aborting = none →
      ∃ (t : State) (y : OutBeat), exec (.faultResolved tn cause) s = .next t ∧ s.SameMemory t
        ∧ t.blk.reg K.ROW_RESUMES = min (s.blk.reg K.ROW_RESUMES + 1) 0xFFFFFFFF
        ∧ y.endpt = 9 ∧ y.cmd = some tn ∧ y.beat.sb = commandSb o x.store true tn k (shUnits (s.blk.tile slot).shape)
        ∧ (∀ i, t.blk.tile i = if i = slot ∧ x.store = false ∧ o.counted = false
            then (s.blk.tile i).issued 0 false s.blk.nextStamp else s.blk.tile i)
        ∧ (∀ i, t.blk.seenTile i = s.blk.seenTile i)
        ∧ Only [K.ROW_RESUMES] [] { (s.blk.setOp { o with n := k - o.d.start, taken := false, counted := true }).setXfer
            { x with
              lastBeat := s.blk.tick.wall + 1, order := some s.blk.nextOrder, cfirst := k, delivered := false, suspended := none, abortSent := false,
              faultK := none } with outs := s.blk.outs ++ [y], tiles := t.blk.tiles, seen := t.blk.seen } t.blk)
    ∧ (∀ k cause, x.suspended = some k → x.aborting = none →
      ∃ t, exec (.faultTerminal tn cause) s = .next t ∧ s.SameMemory t ∧ t.blk.Entered 0x0501 1 (slot % 256)
        ∧ t.blk.reg K.LS_ABANDONED = min (s.blk.reg K.LS_ABANDONED + 1) 0xFFFFFFFF
        ∧ t.blk.recAt K.ROW_FAULT_LAST = record k 0x11 cause ∧ t.blk.xfers = s.blk.xfers.filter (fun y => y.tn != tn)
        ∧ (x.store = false → (t.blk.tile slot).abandoned = true)
        ∧ (x.store = true → t.blk.tiles = s.blk.tiles) ∧ (∀ i, (t.blk.tile i).rowValid = (s.blk.tile i).rowValid)
        ∧ (x.store = true ∨ flying = false → t.blk.op? o.id = none)
        ∧ Only [K.LS_ABANDONED] [K.ROW_FAULT_LAST] { s.blk with
            tiles := t.blk.tiles, ops := t.blk.ops, reqs := t.blk.reqs, xfers := t.blk.xfers } t.blk)

/-- A status beat that names no active transfer is counted; a stored row is noted, and a store whose last row is stored is over. A timeout
of the current transfer is counted and recorded and sends an abort command; an acknowledged abort ends a cancelled transfer, resumes one
whose retries last, and abandons any other; without an acknowledgement in time the transfer ends with a warning, and its beats are
discarded (07_rows_in_out.md R155, R157, R163, R164, R166). The model's choice: log entries 8, 18, 59 and 60. -/
def Obligations.StoredRowsAndAbortsEndTransfers : Prop :=
  ∀ (s : State) (tn : Nat), s.blk.Calm → s.blk.ticking = true → s.blk.busLow 8 = false →
    (∀ (row cause : Nat) (c : Instr), c ∈ [.rowFault tn row cause, .faultResolved tn cause, .faultTerminal tn cause, .storedBelow tn row,
        .abortAcknowledged tn row] → s.blk.xfers.all (fun y => y.tn != tn) = true →
      exec c s = s.becomes ((s.blk.setReg K.EP_PROTO (min (s.blk.reg K.EP_PROTO + 1) 0xFFFFFFFF)).setRec K.EP_FAULT_LAST
        (epFaultRecord s.blk.stamp 8 0xFF 8 0)))
    ∧ ∀ (x : Xfer) (o : Op), s.blk.Carries tn x o →
      let slot := o.d.slot
      let flying := s.blk.writes.any (fun w => w.op == o.id)
      let now : Xfer := { x with lastBeat := s.blk.tick.wall }
      let ends (t : State) : Prop := (x.store = true ∨ flying = false → t.blk.op? o.id = none)
        ∧ (∀ k, k ≠ slot ∨ x.store = true → t.blk.tile k = s.blk.tile k) ∧ (t.blk.tile slot).rowValid = (s.blk.tile slot).rowValid
      (∀ row, x.store = true →
        let x1 : Xfer := { now with
          stored := some (max (x.stored.getD 0) (min row o.rowEnd)),
          faulted := if x.faulted.any (fun f => decide (f < row)) then none else x.faulted }
        (row ≠ o.rowEnd → exec (.storedBelow tn row) s = s.becomes (s.blk.setXfer x1))
        ∧ (row = o.rowEnd → ∃ t, exec (.storedBelow tn row) s = .next t ∧ s.SameMemory t ∧ ends t
          ∧ Only [] [] { s.blk with
              ops := t.blk.ops, reqs := t.blk.reqs, xfers := s.blk.xfers.filter (fun y => y.tn != tn) } t.blk))
      ∧ (x.aborting = none → x.suspended = none → (s.blk.currentXfer x.store).any (fun y => y.tn == tn) = true →
        ∃ (t : State) (y : OutBeat), exec (.lsRowTimeout tn) s = .next t ∧ s.SameMemory t
          ∧ t.blk.reg K.LS_TIMEOUTS = min (s.blk.reg K.LS_TIMEOUTS + 1) 0xFFFFFFFF
          ∧ fieldAt (t.blk.recAt K.ROW_FAULT_LAST) 10 1 = x.lowRow o % 256 ∧ fieldAt (t.blk.recAt K.ROW_FAULT_LAST) 11 1 = 0x10
          ∧ y.endpt = 9 ∧ y.cmd = some tn ∧ y.beat.sb = [3, 0] ++ leBytes 2 tn ++ List.replicate 124 0
          ∧ Only [K.LS_TIMEOUTS] [K.ROW_FAULT_LAST] { s.blk.setXfer { x with
              aborting := some 0, abortAt := s.blk.tick.wall, abortSent := true } with outs := s.blk.outs ++ [y] } t.blk)
      ∧ (x.aborting = some 1 → ∀ row, x.lowRow o ≤ row → row ≤ s.blk.highRow o x → ∃ t, exec (.abortAcknowledged tn row) s = .next t
        ∧ s.SameMemory t ∧ ends t ∧ t.blk.reg K.LS_CANCELLED = min (s.blk.reg K.LS_CANCELLED + 1) 0xFFFFFFFF
        ∧ Only [K.LS_CANCELLED] [] { s.blk with
            tiles := t.blk.tiles, ops := t.blk.ops, reqs := t.blk.reqs,
            xfers := s.blk.xfers.filter (fun y => y.tn != tn) } t.blk)
      ∧ (x.aborting = some 0 → x.suspended = none → x.faultK = none → x.retries < s.blk.cfg K.LS_RETRIES →
        ∀ row, x.lowRow o ≤ row → row ≤ s.blk.highRow o x → row < o.rowEnd →
        ∃ (t : State) (y : OutBeat), exec (.abortAcknowledged tn row) s = .next t ∧ s.SameMemory t
          ∧ t.blk.reg K.ROW_RESUMES = min (s.blk.reg K.ROW_RESUMES + 1) 0xFFFFFFFF
          ∧ y.beat.sb = commandSb o x.store true tn row (shUnits (s.blk.tile slot).shape) ∧ (t.blk.tile slot).startRow = row
          ∧ (∀ k, k ≠ slot → t.blk.tile k = s.blk.tile k)
          ∧ Only [K.ROW_RESUMES] [] { (s.blk.setOp { o with n := row - o.d.start, taken := false, counted := true }).setXfer
              { x with
                lastBeat := s.blk.tick.wall + 1, order := some s.blk.nextOrder, cfirst := row, delivered := false, aborting := none, abortSent := false,
                retries := x.retries + 1 } with outs := s.blk.outs ++ [y], tiles := t.blk.tiles, seen := t.blk.seen } t.blk)
      ∧ (x.aborting.isSome = true → x.aborting ≠ some 1 → (x.aborting = some 0 → s.blk.cfg K.LS_RETRIES ≤ x.retries) → x.suspended = none →
        x.faultK = none → ∀ row, x.lowRow o ≤ row → row ≤ s.blk.highRow o x → row < o.rowEnd →
        ∃ t, exec (.abortAcknowledged tn row) s = .next t ∧ s.SameMemory t ∧ t.blk.Entered 0x0501 1 (slot % 256)
          ∧ (x.store = true ∨ flying = false → t.blk.op? o.id = none) ∧ (t.blk.tile slot).startRow = row
          ∧ (x.store = false → (t.blk.tile slot).abandoned = true)
          ∧ (∀ k, k ≠ slot → t.blk.tile k = s.blk.tile k) ∧ (t.blk.tile slot).rowValid = (s.blk.tile slot).rowValid
          ∧ t.blk.reg K.LS_ABANDONED = min (s.blk.reg K.LS_ABANDONED + 1) 0xFFFFFFFF
          ∧ fieldAt (t.blk.recAt K.ROW_FAULT_LAST) 10 1 = row % 256 ∧ fieldAt (t.blk.recAt K.ROW_FAULT_LAST) 11 1 = 0x11
          ∧ Only [K.LS_ABANDONED] [K.ROW_FAULT_LAST] { s.blk with
              tiles := t.blk.tiles, ops := t.blk.ops, reqs := t.blk.reqs, xfers := s.blk.xfers.filter (fun y => y.tn != tn) } t.blk)
      ∧ (x.aborting = some 1 → ∃ t, exec (.abortAckTimeout tn) s = .next t ∧ s.SameMemory t ∧ ends t
        ∧ t.blk.Entered 0x0502 1 (slot % 256) ∧ t.blk.reg K.LS_CANCELLED = min (s.blk.reg K.LS_CANCELLED + 1) 0xFFFFFFFF
        ∧ Only [K.LS_CANCELLED] [] { s.blk.setXfer { x with orphan := true, order := none, faulted := none, suspended := none } with
            tiles := t.blk.tiles, ops := t.blk.ops, reqs := t.blk.reqs } t.blk)

/-! ### The merge unit -/

/-- A contribution of a shard that is still to come is kept as a leaf of its row, and the row is written only when every shard is present
or closed; one that is out of range, repeated or closed poisons the row and is counted and entered with class 2. A shard close closes its
interval, and a row that no shard contributed to becomes ready as zeros. A ready row is granted its root write, nine cycles from the
banks; an error in its buffer row poisons it. A contribution that finds no buffer row is refused, and past its deadline holds
(08_route_merge.md R179, R180, R182, R183, R185 to R188; 16_faults.md R371). The model's choice: log entries 50, 66 and 67. -/
def Obligations.MergeFoldsContributionsIntoRows : Prop :=
  ∀ s : State,
    (∀ (bt : Beat) (o : Op) (m : SemOp) (c : Cand) (r : MRow), s.blk.SemData s.mem bt 1 o m c →
      (s.blk.tile o.d.slot).gen = o.genOf o.d.slot →
      m.rows.find? (fun x => x.row == (byteAt bt.sb 104).toNat) = some r → r.slot = o.d.slot →
      let shard := fieldAt bt.sb 100 2 % 4096
      let lsc := s.blk.cfg K.LSC
      let n := elemsPerRow (shFmt o.dstShape) (shRB o.dstShape)
      let qs := List.range (ceilDiv (4 * n) 256)
      let old := lsc ≤ shard ∨ r.leaves.any (fun l => l.1 == shard) = true
        ∨ m.closed.any (fun c => decide (c.1 ≤ shard) && decide (shard ≤ c.2)) = true
      let r1 : MRow := { r with
        leaves := Tab.set (fun _ => []) r.leaves shard ((unpackElems 0 256 (takenData bt qs)).take n),
        tag := fieldAt bt.sb 72 4 }
      let h := addsMade lsc m.closed r1 - addsMade lsc m.closed r
      let b := s.blk.semRound bt
      let b1 := (b.addRow h).2.setSem (m.setRow { r1 with adds := r.adds ++ (b.addRow h).1.drop 1 })
      (¬old → s.blk.GoodBeat bt qs → r.done = false → r.result = none →
        (treeNode m.closed 13 0 lsc (r1.leaves.map (fun l => l.1))).1 = false →
        ∃ t, exec (.mergeContribution bt) s = .next t ∧ s.SameMemory t
          ∧ t.blk.reg K.MERGE_BUF_PEAK = max (s.blk.reg K.MERGE_BUF_PEAK) (min b1.bufUsed 1024)
          ∧ Only [K.MERGE_BUF_PEAK, K.SB_RSVD_NZ] [] (b1.granted 5 c) t.blk)
      ∧ (old → s.blk.badStamp bt.stamp = false → stampBad bt = false →
        ∃ t, exec (.mergeContribution bt) s = .next t ∧ s.SameMemory t ∧ t.blk.Entered 0x0601 2 (o.d.slot % 256)
          ∧ t.blk.reg K.MERGE_ORDER_FAULTS = min (s.blk.reg K.MERGE_ORDER_FAULTS + 1) 0xFFFFFFFF
          ∧ fieldAt (t.blk.recAt K.SEM_FAULT_LAST) 11 1 = (if lsc ≤ shard then 1 else if r.leaves.any (fun l => l.1 == shard) then 3 else 4)
          ∧ Only [K.MERGE_ORDER_FAULTS] [K.SEM_FAULT_LAST]
              ((b.poisonRows m (fun x => x.row == r.row)).granted 5 c) t.blk))
    ∧ (∀ (bt : Beat) (o : Op) (m : SemOp), s.blk.SemBeat bt 1 o m → takeContribution s.blk o m bt false = none →
      s.blk.NoneOn s.mem 5 [{ endpt := 4, beat := bt }] → s.blk.unrefused.Calm →
      (s.blk.refused = none ∧ s.blk.tick.holdOut = none ∨ s.blk.refused = some o.id ∧ s.blk.tick.holdOut.isSome = true) →
      let late := (o.d.deadline < s.blk.tick.lcyc ∨ o.tick ≠ s.blk.tick.tick) ∧ o.d.deadline ≠ 0x1FFFFF
      let b := s.blk.roundBegun s.mem 5 [{ endpt := 4, beat := bt }]
      ∃ t, exec (.mergeContribution bt) s = .next t ∧ s.SameMemory t
        ∧ t.blk.reg K.MERGE_STALLS = min (s.blk.reg K.MERGE_STALLS + 1) 0xFFFFFFFF
        ∧ (late → s.blk.refused = none → Only [K.MERGE_STALLS] [] { b with
            refused := some o.id,
            tick := { b.tick with holdOut := some b.tick.wall, netFault := false, holdSeen := b.tick.holdIn } } t.blk)
        ∧ (¬late ∨ s.blk.refused = some o.id → Only [K.MERGE_STALLS] [] b t.blk))
    ∧ (∀ (bt : Beat) (o : Op) (m : SemOp), s.blk.SemBeat bt 2 o m → sbBad bt = false → stampBad bt = false →
      let a := fieldAt bt.sb 100 2
      let c := fieldAt bt.sb 102 2
      let lsc := s.blk.cfg K.LSC
      let m1 : SemOp := { m with closed := m.closed ++ [(a, c)], closedAll := covered (m.closed ++ [(a, c)]) 0 lsc }
      (a ≤ c → c < lsc →
        (m.rows.Pairwise (fun x y => x.slot ≠ y.slot ∨ x.row ≠ y.row) →
          m.rows.all (fun r => r.done || r.result.isSome || (!(treeNode m1.closed 13 0 lsc (r.leaves.map (fun l => l.1))).1
            && decide (addsMade lsc m1.closed r ≤ addsMade lsc m.closed r))) = true →
          exec (.shardClose bt) s = s.becomes ((s.blk.setSem m1).notePeak))
        ∧ (∀ r, m.rows = [r] → r.leaves = [] → r.done = false → r.result = none → r.needsPre = false → o.d.opf = false →
          m1.closedAll = true → exec (.shardClose bt) s = s.becomes ((s.blk.count K.EMPTY_MERGES).setSem { m1 with rows := [{ r with
            result := some (List.replicate (elemsPerRow (shFmt o.dstShape) (shRB o.dstShape)) 0), empty := true,
            ready := some (s.blk.tick.wall + 3) }] }).notePeak))
      ∧ (c < a ∨ lsc ≤ c → ∃ t, exec (.shardClose bt) s = .next t ∧ s.SameMemory t ∧ t.blk.Entered 0x0601 2 (o.d.slot % 256)
        ∧ t.blk.reg K.MERGE_ORDER_FAULTS = min (s.blk.reg K.MERGE_ORDER_FAULTS + 1) 0xFFFFFFFF
        ∧ Only [K.MERGE_ORDER_FAULTS] [K.SEM_FAULT_LAST] (s.blk.poisonRows m (fun _ => true)) t.blk))
    ∧ (∀ (id row : Nat) (err : Option Nat) (o : Op) (m : SemOp) (r : MRow) (codes : List Nat), s.blk.op? id = some o → o.d.opc = 0x32 →
      s.blk.sems.find? (fun x => x.op == id) = some m → (m.readyRows s.blk.tick.wall).find? (fun x => o.rowNo x == row) = some r →
      let m1 : SemOp := { m with rows := r :: m.rows.filter (fun x => o.rowNo x != row) }
      let b := s.blk.setSem m1
      b.Calm → b.AloneOn s.mem 5 [] (rootCand s.blk o r) → r.result = some codes → s.blk.flt.badConv = none →
      s.blk.active (8 + s.blk.groupOf r.slot r.row) = true →
      ∃ (t : State) (w : RowWrite), exec (.mergeRootReady id ⟨row, err⟩) s = .next t ∧ s.SameMemory t
        ∧ w.wid = s.blk.wNo ∧ w.op = o.id ∧ w.slot = r.slot ∧ w.row = r.row ∧ w.gen = o.genOf r.slot ∧ w.due = s.blk.tick.wall + 9
        ∧ w.quarters = List.range (shQuarters o.dstShape)
        ∧ w.payload = (convRow o.dstShape o.sigma (codes.map (decodeElem 0)) {}).1 ∧ (byteAt w.sb 82).getLsbD 1 = (r.poison || err.isSome)
        ∧ (err.isSome = true → t.blk.Entered 0x0605 2 255 ∧ w ∈ t.blk.writes)
        ∧ (err = none → Only [K.NONFINITE_IN, K.MX_CLAMPS] [] {
            ((b.openRound 5 []).setSem (m1.setRow { r with ready := none, summed := true })).granted 5 (rootCand s.blk o r) with
            ops := t.blk.ops, writes := s.blk.writes ++ [w], wNo := s.blk.wNo + 1 } t.blk))

/-- A route row below the capacity of its expert goes to its row of the expert's bucket, claimed once; beyond it the row is dropped,
counted for the expert, and written to its residual row with the dropped mark; a key below the previous one is discarded, counted and
entered with class 2, and so is a collision with class 1. The close beat completes the operation once its writes are in the banks
(08_route_merge.md R191 to R194). The model's choice: log entries 50, 66 and 67. -/
def Obligations.RouteRowsGoToTheirBuckets : Prop :=
  ∀ (s : State) (bt : Beat) (o : Op) (m : SemOp) (g : Cand),
    let e := fieldAt bt.sb 102 2 % 128
    let rho := fieldAt bt.sb 100 2
    let tag := fieldAt bt.sb 72 4
    let tok := tag % 2 ^ 24
    let key := (bt.stamp.toNat, tok, bits tag 27 24)
    let low := m.prevKey.any (fun p => routeBelow p key)
    let slot := if rho < o.d.cap then o.d.slot + e * o.d.bktTiles + rho / 64 else o.d.resBase + tok / 64
    let row := if rho < o.d.cap then rho % 64 else tok % 64
    let qs := List.range (shQuarters (s.blk.tile slot).shape)
    let m1 : SemOp := { m with prevKey := some key }
    let b := s.blk.semRound bt
    (s.blk.SemData s.mem bt 3 o m g → s.blk.badStamp bt.stamp = false → stampBad bt = false →
      (low = false → e < o.d.nexp → s.blk.GoodBeat bt qs → s.blk.active (8 + s.blk.groupOf slot row) = true →
        (rho < o.d.cap → m.claimed.contains (slot, row) = false) → (o.d.cap ≤ rho → tok / 64 < o.d.resTiles) →
        ∃ (t : State) (w : RowWrite), exec (.routeRow bt) s = .next t ∧ s.SameMemory t
          ∧ w.op = o.id ∧ w.slot = slot ∧ w.row = row ∧ w.gen = o.genOf slot ∧ w.quarters = qs ∧ w.due = s.blk.tick.wall + 14
          ∧ (byteAt w.sb 82).getLsbD 3 = decide (o.d.cap ≤ rho) ∧ fieldAt w.sb 72 4 = tag % 2 ^ 28
          ∧ (rho < o.d.cap ∨ o.d.opf = true → ∀ i, i < 1024 → i / 256 ∈ qs → byteAt w.payload i = byteAt bt.data i)
          ∧ (o.d.cap ≤ rho → o.d.opf = false → w.payload = [])
          ∧ Only [K.SB_RSVD_NZ] [] { (b.setSem { m1 with
              claimed := if rho < o.d.cap then (slot, row) :: m.claimed else m.claimed,
              drops := if rho < o.d.cap then m.drops else Tab.set (fun _ => 0) m.drops e (Tab.get (fun _ => 0) m.drops e + 1) }).granted 5 g with writes := s.blk.writes ++ [w], wNo := s.blk.wNo + 1 } t.blk)
      ∧ (low = true → ∃ t, exec (.routeRow bt) s = .next t ∧ s.SameMemory t ∧ t.blk.Entered 0x0602 2 255
        ∧ t.blk.reg K.ROUTE_ORDER_FAULTS = min (s.blk.reg K.ROUTE_ORDER_FAULTS + 1) 0xFFFFFFFF
        ∧ Only [K.ROUTE_ORDER_FAULTS] [K.SEM_FAULT_LAST] (b.granted 5 g) t.blk)
      ∧ (low = false → e < o.d.nexp → rho < o.d.cap → m.claimed.contains (slot, row) = true →
        ∃ t, exec (.routeRow bt) s = .next t ∧ s.SameMemory t ∧ t.blk.Entered 0x0603 1 (slot % 256)
        ∧ t.blk.reg K.ROUTE_COLLISIONS = min (s.blk.reg K.ROUTE_COLLISIONS + 1) 0xFFFFFFFF
        ∧ Only [K.ROUTE_COLLISIONS] [] ((b.setSem m1).granted 5 g) t.blk)
      ∧ (low = false → o.d.nexp ≤ e → ∃ t, exec (.routeRow bt) s = .next t ∧ s.SameMemory t ∧ t.blk.Entered 0x0604 1 255
        ∧ t.blk.reg K.SEM_INDEX_FAULTS = min (s.blk.reg K.SEM_INDEX_FAULTS + 1) 0xFFFFFFFF
        ∧ Only [K.SEM_INDEX_FAULTS] [] ((b.setSem m1).granted 5 g) t.blk))
    ∧ (s.blk.SemBeat bt 4 o m → sbBad bt = false → stampBad bt = false →
      (s.blk.writes.any (fun w => w.op == o.id) = true → exec (.routeClose bt) s = s.becomes (s.blk.setSem { m with closedAll := true }))
      ∧ (s.blk.writes.any (fun w => w.op == o.id) = false → m.rows = [] → o.role = .main → s.blk.AllActive →
        ∃ t, exec (.routeClose bt) s = .next t ∧ s.SameMemory t ∧ t.blk.op? o.id = none
          ∧ t.blk.reg K.ROUTE_DROPS = min (s.blk.reg K.ROUTE_DROPS + (m.drops.map (fun c => c.2)).sum) 0xFFFFFFFF
          ∧ t.blk.recAt K.BUCKET_DROPS = (List.range 128).flatMap (fun x => leBytes 4 (Tab.get (fun _ => 0) m.drops x))
          ∧ (∀ k, (t.blk.tile k).rowValid = (s.blk.tile k).rowValid) ∧ (∀ k, k ∉ o.dests.map (fun d => d.1) → t.blk.tile k = s.blk.tile k)
          ∧ Only [K.ROUTE_DROPS] [K.BUCKET_DROPS] { s.blk with
              refused := if s.blk.refused = some o.id then none else s.blk.refused,
              tiles := t.blk.tiles, ops := t.blk.ops, reqs := t.blk.reqs, sems := s.blk.sems.filter (fun x => x.op != o.id) } t.blk))

/-- A return row of the tile's epoch that is not too old is kept as the first leaf of its row, or, where one choice is expected, is
written as received, fourteen cycles from the banks; one of another epoch, or older than `MAX_RETURN_AGE`, is discarded and counted, and
one whose epoch a cancel of this very cycle has made old is purged. The close beat makes every row with a leaf ready, or completes an
operation that has none (08_route_merge.md R196 to R199). The model's choice: log entries 50, 66 and 67. -/
def Obligations.ReturnRowsFoldByTag : Prop :=
  ∀ (s : State) (bt : Beat) (o : Op) (m : SemOp) (g : Cand),
    let tag := fieldAt bt.sb 72 4
    let tok := tag % 2 ^ 24
    let c := bits tag 27 24
    let slot := o.d.slot + tok / 64
    let row := tok % 64
    let x := s.blk.seenTile slot
    let qs := List.range (shQuarters x.shape)
    let age := tickDiff s.blk.stamp bt.stamp
    let ep := fieldAt bt.sb 80 2
    (s.blk.SemData s.mem bt 5 o m g → s.blk.badStamp bt.stamp = false → stampBad bt = false → bt.stamp.toNat = fieldAt bt.sb 64 8 →
      tok / 64 < o.d.dstTiles →
      let blank : MRow := { slot := slot, row := row, tag := tok, epoch := ep, single := some { bt with data := takenData bt qs } }
      (∀ counter : Nat, (ep ≠ x.epoch ∧ counter = K.MACE_EPOCH_DISCARDS)
          ∨ (ep = x.epoch ∧ (age < 0 ∨ (s.blk.cfg K.MAX_RETURN_AGE : Int) < age) ∧ counter = K.MACE_AGE_DISCARDS)
          ∨ (ep = x.epoch ∧ 0 ≤ age ∧ age ≤ s.blk.cfg K.MAX_RETURN_AGE ∧ ep ≠ (s.blk.tile slot).epoch ∧ counter = K.MACE_PURGED) →
        ∃ t, exec (.returnRow bt) s = .next t ∧ s.SameMemory t ∧ t.blk.reg counter = min (s.blk.reg counter + 1) 0xFFFFFFFF
          ∧ (∀ k, t.blk.tile k = if k = slot then { s.blk.tile k with maceDisc := min ((s.blk.tile k).maceDisc + 1) 65535 } else s.blk.tile k)
          ∧ Only [counter] [] { (s.blk.semRound bt).granted 5 g with tiles := t.blk.tiles } t.blk)
      ∧ (ep = x.epoch → ep = (s.blk.tile slot).epoch → 0 ≤ age → age ≤ s.blk.cfg K.MAX_RETURN_AGE → s.blk.GoodBeat bt qs →
        m.rows.all (fun r => r.slot != slot || r.row != row) = true →
        (2 ≤ o.d.choices → c < o.d.choices →
          let r1 : MRow := { blank with
            leaves := Tab.set (fun _ => []) [] c ((decodeRow x.shape (takenData bt qs) bt.sb).map toFp32) }
          let b := (s.blk.semRound bt).setSem { m with rows := m.rows ++ [r1] }
          ∃ t, exec (.returnRow bt) s = .next t ∧ s.SameMemory t
            ∧ t.blk.reg K.MERGE_BUF_PEAK = max (s.blk.reg K.MERGE_BUF_PEAK) (min b.bufUsed 1024)
            ∧ Only [K.MERGE_BUF_PEAK, K.SB_RSVD_NZ] [] (b.granted 5 g) t.blk)
        ∧ (o.d.choices = 1 → c = 0 → s.blk.adderBusy = false → s.blk.active (8 + s.blk.groupOf slot row) = true →
          let r1 : MRow := { blank with leaves := [(0, [0])], result := some [] }
          let b := (s.blk.semRound bt).setSem { m with rows := m.rows ++ [r1] }
          ∃ (t : State) (w : RowWrite), exec (.returnRow bt) s = .next t ∧ s.SameMemory t
            ∧ w.op = o.id ∧ w.slot = slot ∧ w.row = row ∧ w.gen = o.genOf slot
            ∧ w.quarters = List.range (shQuarters (s.blk.tile slot).shape) ∧ w.due = s.blk.tick.wall + 14
            ∧ w.leaves = some 1 ∧ (∀ i, i < 1024 → i / 256 ∈ qs → byteAt w.payload i = byteAt bt.data i)
            ∧ Only [K.MERGE_BUF_PEAK, K.SB_RSVD_NZ] [] { b.granted 5 g with
                writes := s.blk.writes ++ [w], wNo := s.blk.wNo + 1 } t.blk)))
    ∧ (s.blk.SemBeat bt 6 o m → sbBad bt = false → stampBad bt = false →
      (∀ r, m.rows = [r] → r.done = false → r.ready = none → r.result = none → r.leaves ≠ [] →
        let added := s.blk.addRow (r.leaves.length - 1 - (foldRun (r.leaves.map (fun l => l.1)) - 1))
        exec (.returnClose bt) s = s.becomes (added.2.setSem { m with
          closedAll := true, rows := [{ r with adds := r.adds ++ added.1, ready := some (readyAt s.blk.tick.wall added.1) }] }))
      ∧ (m.rows = [] → m.uses = [] → s.blk.writes.any (fun w => w.op == o.id) = false → o.role = .main → s.blk.AllActive →
        ∃ t, exec (.returnClose bt) s = .next t ∧ s.SameMemory t ∧ t.blk.op? o.id = none
          ∧ (∀ k, (t.blk.tile k).rowValid = (s.blk.tile k).rowValid) ∧ (∀ k, k ∉ o.dests.map (fun d => d.1) → t.blk.tile k = s.blk.tile k)
          ∧ Only [] [] { s.blk with
              refused := if s.blk.refused = some o.id then none else s.blk.refused,
              tiles := t.blk.tiles, ops := t.blk.ops, reqs := t.blk.reqs, sems := s.blk.sems.filter (fun x => x.op != o.id) } t.blk))

/-! ### Numbers, formats and checksums -/

/-- Addition of FP32 codes commutes; a NaN, and the sum of two opposite infinities, give the canonical NaN; an infinity stays; the sum of
finite numbers is the finite number nearest to the exact sum, the even code at a tie, subnormals included, or the infinity of its sign
from half a step above the largest finite number on; an exact zero is +0.0, and -0.0 only for two -0.0 (09_numerics.md R208). The model's
choice: log entry 58. -/
def Obligations.Fp32SumsAreRoundedToNearestEven : Prop :=
  ∀ a b : Nat, a < 2 ^ 32 → b < 2 ^ 32 →
    let r := addFp32 a b
    r < 2 ^ 32 ∧ addFp32 b a = r
    ∧ (decodeElem 0 a = .nan → r = 0x7FC00000)
    ∧ (∀ p, decodeElem 0 a = .inf p →
      (decodeElem 0 b = .inf (!p) → r = 0x7FC00000) ∧ (decodeElem 0 b = .inf p ∨ (fp32Units b).isSome = true → r = a))
    ∧ (∀ x y : Int, fp32Units a = some x → fp32Units b = some y →
      (x + y = 0 → r = if a = 0x80000000 ∧ b = 0x80000000 then 0x80000000 else 0)
      ∧ ((x + y).natAbs < (2 ^ 25 - 1) * 2 ^ 252 → ∃ z, fp32Units r = some z
        ∧ ∀ (c : Nat) (w : Int), c < 2 ^ 32 → fp32Units c = some w → (z - (x + y)).natAbs ≤ (w - (x + y)).natAbs
          ∧ ((z - (x + y)).natAbs = (w - (x + y)).natAbs → w ≠ z → r % 2 = 0))
      ∧ ((2 ^ 25 - 1) * 2 ^ 252 ≤ (x + y).natAbs → r = if x + y < 0 then 0xFF800000 else 0x7F800000))

/-! ### Conversion -/

/-- A finite element scaled by a power of two is written as the nearest value of its format, the even code at a tie, with a zero of its
own sign in a floating-point format; from half a grid step beyond the largest finite value on, with the tie of an odd one, it overflows to
the infinity or the limit of its format, or, in an MX block, is clamped and counted; a nonzero one that becomes a zero is flushed. A NaN
and an infinity are counted. A block with either is written as zeros with scale 0xFF; any other takes the scale that brings its largest
magnitude into the top binade. Packing keeps every code (03_tile_registers.md R61; 09_numerics.md R212 to R215). The model's choice: log
entry 58. -/
def Obligations.ConversionsRoundToNearestEven : Prop :=
  (∀ (f : Nat) (sigma k e : Int) (mx n : Bool) (m : Nat), f ≤ 12 → 149 ≤ k → 0 ≤ e + sigma + k →
    let y : Int := (if n then -1 else 1) * ((m * 2 ^ (e + sigma + k).toNat : Nat) : Int)
    let r := convElem f sigma mx (.fin n m e) {}
    let lim := fmtLimits f
    let step : Int := 2 ^ (lim.2.2 + k).toNat
    let beyond := 2 * y > (2 * lim.2.1 + 1) * step ∨ (2 * y = (2 * lim.2.1 + 1) * step ∧ lim.2.1 % 2 = 1)
      ∨ 2 * y < (2 * lim.1 - 1) * step ∨ (2 * y = (2 * lim.1 - 1) * step ∧ lim.1 % 2 = 1)
    r.2.nonfinite = 0 ∧ r.2.sums.nonzero = (if m = 0 then 0 else 1)
      ∧ (beyond → r.2.sums.overflow = !mx ∧ r.2.clamps = (if mx then 1 else 0) ∧ r.2.sums.flushed = 0
        ∧ (f ≤ 2 → decodeElem f r.1 = .inf n)
        ∧ (2 < f → (decodeElem f r.1).units k = some ((if n then lim.1 else lim.2.1) * step)))
      ∧ (¬beyond → r.2.sums.overflow = false ∧ r.2.clamps = 0 ∧ ∃ z, (decodeElem f r.1).units k = some z
        ∧ r.2.sums.flushed = (if m ≠ 0 ∧ z = 0 then 1 else 0) ∧ (f ≤ 9 → z = 0 → bit r.1 (fmtBits f - 1) = n)
        ∧ ∀ (c : Nat) (w : Int), c < 2 ^ fmtBits f → (decodeElem f c).units k = some w → lim.1 * step ≤ w → w ≤ lim.2.1 * step →
          (z - y).natAbs ≤ (w - y).natAbs ∧ ((z - y).natAbs = (w - y).natAbs → w ≠ z → r.1 % 2 = 0)))
  ∧ (∀ (f : Nat) (sigma : Int) (mx n : Bool), f ≤ 12 →
    let r := convElem f sigma mx .nan {}
    let q := convElem f sigma mx (.inf n) {}
    r.2 = { nonfinite := 1 } ∧ r.1 = ([0x7FC00000, 0x7E00, 0x7FC0, 0x7F, 0x7E] : List Nat).getD f 0
      ∧ q.2 = { nonfinite := 1 } ∧ (f ≤ 2 ∨ f = 4 → decodeElem f q.1 = .inf n)
      ∧ (f = 3 ∨ 5 ≤ f → (decodeElem f q.1).units 149 = some ((if n then (fmtLimits f).1 else (fmtLimits f).2.1) * 2 ^ ((fmtLimits f).2.2 + 149).toNat)))
  ∧ (∀ (f : Nat) (xs : List Machine.Num), 5 ≤ f → f ≤ 10 →
    let r := convBlock f xs {}
    ((∃ x ∈ xs, x.finite = false) → r.1 = List.replicate xs.length 0 ∧ r.2.1 = 0xFF ∧ r.2.2.clamps = 0 ∧ r.2.2.sums.flushed = 0
      ∧ r.2.2.sums.overflow = false ∧ r.2.2.nonfinite = (xs.filter (fun x => !x.finite)).length)
    ∧ ((∀ x ∈ xs, x.finite = true) → ∃ sb : Int, -127 ≤ sb ∧ sb ≤ 127 ∧ (r.2.1.toNat : Int) = 127 - sb
      ∧ r.1 = xs.map (fun x => (convElem f sb true x {}).1) ∧ r.2.2.sums.overflow = false ∧ r.2.2.nonfinite = 0
      ∧ ((∀ n m e, Machine.Num.fin n m e ∈ xs → m = 0) → sb = 0)
      ∧ (∀ n m e, Machine.Num.fin n m e ∈ xs → m ≠ 0 → (∀ n' m' e', Machine.Num.fin n' m' e' ∈ xs → m' ≠ 0 → floorLog2 m' e' ≤ floorLog2 m e) →
        sb = max (-127) (min 127 (emaxOf f - floorLog2 m e)))))
  ∧ (∀ (f : Nat) (cs : List Nat), f ≤ 14 → (∀ c ∈ cs, c < 2 ^ fmtBits f) → cs.length % 4 = 0 →
    unpackElems f cs.length (packElems f cs) = cs)
/-! ### Gather, link and loop -/

/-! ### Numbers, formats and checksums -/

/-- An MXFP6 shape is allowed only where its row length is a multiple of 96 bytes, from 96 to 960; such a row holds 128 elements, that is
four blocks, for each 96 bytes. Validation rejects an image that holds a `TCFG` with any other row length for such a format
(03_tile_registers.md R62). -/
def Obligations.MxFp6RowsAreMultiplesOf96 : Prop :=
  (∀ w, shFmt w = 7 ∨ shFmt w = 8 →
      (shapeOk w = true → ∃ k, 1 ≤ k ∧ k ≤ 10 ∧ shRB w = 96 * k ∧ elemsPerRow (shFmt w) (shRB w) = 128 * k
        ∧ elemsPerRow (shFmt w) (shRB w) / 32 = 4 * k)
      ∧ ((∀ k, 1 ≤ k → k ≤ 10 → shRB w ≠ 96 * k) → shapeOk w = false))
  ∧ (∀ (s : State) (p i : Nat), s.blk.reg K.IMAGE_STATE = 1 → s.blk.pins.invalidate = false → p < s.mem.progs → i < s.mem.progLen p →
      let d := decodeDesc (s.mem.img (s.mem.progOff p + 32 * i) 32)
      d.opc = 0x01 → (shFmt d.shape = 7 ∨ shFmt d.shape = 8) → (∀ k, 1 ≤ k → k ≤ 10 → shRB d.shape ≠ 96 * k) →
      ∃ t, exec .imageValidationDone s = .next t ∧ t.blk.reg K.IMAGE_STATE = 3)

/-- The check of a frame is the CRC-16 with polynomial 0x1021 and initial value 0xFFFF, not reflected, 0x29B1 for "123456789". A frame
addressed to Doluo whose check is wrong, or which ends early, is counted in `RING_CRC_ERRS` and changes nothing else: it has no answer. A
frame for another node goes on as it came, whatever its check (13_evien.md R314). -/
def Obligations.FramesAreCheckedByTheirCrc : Prop :=
  (crc16 [] = 0xFFFF ∧ crc16 [0x31, 0x32, 0x33, 0x34, 0x35, 0x36, 0x37, 0x38, 0x39] = 0x29B1
    ∧ ∀ (bs : List Byte) (b : Byte), crc16 bs < 2 ^ 16 ∧
      BitVec.ofNat 16 (crc16 (bs ++ [b])) = (List.range 8).foldl
        (fun (c : BitVec 16) _ => if c.getLsbD 15 then (c <<< 1) ^^^ (0x1021 : BitVec 16) else c <<< 1)
        (BitVec.ofNat 16 (crc16 bs) ^^^ (b.setWidth 16 <<< 8)))
  ∧ (∀ (s : State) (f : List Byte), s.blk.lc ≠ .off → s.blk.pins.bridgeOn = true → s.blk.pins.ringLow = false → s.blk.ring.fenced = false →
      (∀ early, early = true ∨ f.length < 2 ∨ crc16 (f.take (f.length - 2)) ≠ fieldAt f (f.length - 2) 2 →
        exec (.frameDiscarded f early) s = s.becomes (s.blk.count K.RING_CRC_ERRS))
      ∧ (byteAt f 1 ≠ Config.nodeAddr → byteAt f 0 ≠ Config.nodeAddr → s.blk.ring.forward.length < 2 → exec (.forwardFrame f) s =
        s.becomes { s.blk with ring := { s.blk.ring with forward := s.blk.ring.forward ++ [f] } }))

/-! ### The service matrix -/

/-- A burst that meets no other access is answered at once: a read with the bytes of its target, a write by storing each strobed byte, and
no other, in program or data RAM; a write that the state refuses, a burst that leaves its target, and a read that meets an uncorrectable
error get an error response, one without a path waits for its timeout, and a write whose last beats have not come waits for them. An error
in Anise or the dictionary store leaves the units read uncommitted. A locking read locks its target for its master; a corrected word of
program or data RAM is counted (12_service_matrix.md R291, R293, R295, R296, R299, R305; 11_sequencer.md R285; 16_faults.md R371). A write
burst to a unit's own memory or registers: a whole Anise slot of the bridge or the save engine is stored but for its reserved bits, any
other master writes `MARGIN` and `SLOT_MASK` only and clears `FLUSH_ALARM`, and either way the slot is committed; a Clove counter is
stored but for its reserved bytes; bytes of the dictionary store are stored, and the value of a plain entry written behind its header is
the entry's, its record uncommitted; `MAP_CTRL`, `MX_LOCK_STATUS` and the `DEAD_READ` of a tile change by their own bits only (00_scope.md
R6, R8; 03_tile_registers.md R68; 09_numerics.md R226, R231, R234; 11_sequencer.md R274; 12_service_matrix.md R291, R293, R308, R310). A
burst of the service window that its target takes becomes its transfers, one for each row or quarter that it touches; one that touches
none reads as zeros; a write that the state refuses, or with every port of a direction fenced, gets an error response. Requester 15's
grant makes the next transfer: the last read answers with the stored bytes, a write reads its row and then puts it, with its strobed bytes
replaced, the stamp of the grant and the tile's epoch, into the write path, and answers when the row has landed (12_service_matrix.md R300
to R304; 03_tile_registers.md R66). The model's choice: log entries 8, 17, 50, 51, 70 and 80. -/
def Obligations.MatrixBurstsReachTheirTargets : Prop :=
  (∀ (s : State) (u : Burst), burstOk u = true → s.blk.mxHeld u.master = false → s.blk.mx.waits = [] → s.blk.flt.trWait = [] →
      let n := burstLen u
      let access : MxWait := { burst := u, since := s.blk.tick.wall, why := 0, no := s.blk.mx.no, tick := s.blk.tick.tick,
                               en := s.blk.mxEnabled u.master }
      (s.blk.mxEnabled u.master = false ∨ s.blk.mxRouteNow u (s.blk.mx.remapWait && s.blk.tick.wall == s.blk.mx.remapAt) = none → exec (.matrixBurst u false) s = s.becomes { s.blk with mx := { s.blk.mx with
        no := s.blk.mx.no + 1, waits := [access] } })
      ∧ ∀ t base size, s.blk.mxEnabled u.master = true → s.blk.mxRouteNow u true = some (t, base, size) → t < 8 → s.blk.lockOf t = none → s.blk.mx.remapWait = false →
        let off := u.addr - base
        let b : Blk := { s.blk with mx := { s.blk.mx with no := s.blk.mx.no + 1, park := Tab.set (fun _ => 0) s.blk.mx.park t (u.master + 1) } }
        let ram : Bool := t == 1 || t == 3 || (t == 0 && s.blk.pins.remapDone)
        let read : Blk := if u.corrected && ram then b.count K.SEQ_ECC_CE else b
        let inside := off + n ≤ size ∧ u.addr / 4096 = (u.addr + n - 1) / 4096
        (inside → u.write = false → (u.lock = false ∨ u.master = 0 ∨ u.master = 4) →
          exec (.matrixBurst u false) s = s.becomes (read.mxResp u.master 0 (readTarget s.mem b t off n)))
        ∧ (inside → u.write = false → u.lock = true → u.master ≠ 0 → u.master ≠ 4 → exec (.matrixBurst u false) s =
          s.becomes (({ read with mx := { b.mx with locks := s.blk.mx.locks ++ [(t, u.master, s.blk.tick.wall)] } } : Blk).mxResp u.master 0
            (readTarget s.mem b t off n)))
        ∧ (inside → u.write = false → ram = true → 2 ≤ u.master →
          ∃ r, exec (.matrixBurst u true) s = .next r ∧ s.SameMemory r
            ∧ r.blk.recAt K.MX_ERR_LAST = leBytes 8 s.blk.stamp.toNat ++ [BitVec.ofNat 8 u.master, BitVec.ofNat 8 t, 7, 0] ++ leBytes 4 u.addr
            ∧ r.blk.mx.resp = s.blk.mx.resp.filter (fun x => x.1 != u.master) ++ [(u.master, 1, readTarget s.mem b t off n)]
            ∧ Only [K.MX_ERR_RESP, K.SEQ_ECC_CE] [K.MX_ERR_LAST]
                (Blk.bridgeFails { b with mx := { b.mx with resp := r.blk.mx.resp, locks := r.blk.mx.locks } } u.master) r.blk)
        ∧ (inside → u.write = false → t = 4 ∨ t = 5 →
          ∃ r, exec (.matrixBurst u true) s = .next r ∧ r.pending = s.pending ∧ r.mem = { s.mem with dict := r.mem.dict }
            ∧ (t = 4 → r.mem = s.mem)
            ∧ r.blk.recAt K.MX_ERR_LAST = leBytes 8 s.blk.stamp.toNat ++ [BitVec.ofNat 8 u.master, BitVec.ofNat 8 t, 7, 0] ++ leBytes 4 u.addr
            ∧ r.blk.mx.resp = s.blk.mx.resp.filter (fun x => x.1 != u.master) ++ [(u.master, 1, readTarget s.mem b t off n)]
            ∧ (∀ k, r.blk.aniseSlot k = if t = 4 ∧ off < 32 * (k + 1) ∧ 32 * k < off + n ∧ off < 131072 ∧ k < 4096
                then putBytes (s.blk.aniseSlot k) 20 [byteAt (s.blk.aniseSlot k) 20 &&& 0xFE] else s.blk.aniseSlot k)
            ∧ (∀ k, k ∈ r.blk.mx.uncommitted ↔ k ∈ s.blk.mx.uncommitted
                ∨ (t = 5 ∧ ∃ i, i < n ∧ (unitAt s.mem 5 (off + i)).any (fun x => x.1 == k) = true))
            ∧ Only [K.MX_ERR_RESP] [K.MX_ERR_LAST] (Blk.bridgeFails { b with
                anise := r.blk.anise,
                mx := { b.mx with resp := r.blk.mx.resp, locks := r.blk.mx.locks, fills := r.blk.mx.fills, uncommitted := r.blk.mx.uncommitted } }
                u.master) r.blk)
        ∧ (inside → u.write = true → s.blk.writeRefused u t off n = false → u.data.length < n → exec (.matrixBurst u false) s =
          s.becomes { b with mx := { b.mx with waits := [{ access with why := 6, granted := s.blk.tick.wall + 1 }] } })
        ∧ (inside → u.write = true → (t = 1 ∨ t = 3) → s.blk.writeRefused u t off n = false → u.data.length = n →
          ∃ r, exec (.matrixBurst u false) s = .next r ∧ r.pending = s.pending ∧ r.blk = b.mxResp u.master 0 []
            ∧ r.mem = { s.mem with prog := if t = 1 then r.mem.prog else s.mem.prog, dram := if t = 1 then s.mem.dram else r.mem.dram }
            ∧ ∀ a, Tab.get zeroByte (if t = 1 then r.mem.prog else r.mem.dram) a
                = ((if off ≤ a ∧ a < off + n then (u.data[a - off]?).getD none else none).getD
                    (Tab.get zeroByte (if t = 1 then s.mem.prog else s.mem.dram) a)))
        ∧ (∀ kind, (¬inside ∧ kind = 3) ∨ (inside ∧ u.write = true ∧ s.blk.writeRefused u t off n = true ∧ kind = 4) →
          ∃ r, exec (.matrixBurst u false) s = .next r ∧ s.SameMemory r
            ∧ r.blk.reg K.MX_ERR_RESP = min (s.blk.reg K.MX_ERR_RESP + 1) 0xFFFFFFFF
            ∧ r.blk.recAt K.MX_ERR_LAST = leBytes 8 s.blk.stamp.toNat ++ [BitVec.ofNat 8 u.master, BitVec.ofNat 8 t, BitVec.ofNat 8 kind, 0]
              ++ leBytes 4 u.addr
            ∧ r.blk.mx.resp = s.blk.mx.resp.filter (fun x => x.1 != u.master) ++ [(u.master, 1, [])]
            ∧ Only [K.MX_ERR_RESP] [K.MX_ERR_LAST]
                (Blk.bridgeFails { b with mx := { b.mx with resp := r.blk.mx.resp, locks := r.blk.mx.locks } } u.master) r.blk))
  ∧ (∀ (s : State) (u : Burst) (bs : List Byte), burstOk u = true → u.write = true → u.data = bs.map some → bs.length = burstLen u →
      s.blk.mxHeld u.master = false → s.blk.mx.waits = [] → s.blk.flt.trWait = [] → s.blk.mx.locks = [] → s.blk.mx.fills = [] →
      s.blk.mxEnabled u.master = true → s.blk.mx.remapWait = false → ∀ t base size, s.blk.mxRouteNow u true = some (t, base, size) →
      t = 4 ∨ t = 5 ∨ t = 7 → u.addr - base + bs.length ≤ size → u.addr / 4096 = (u.addr + bs.length - 1) / 4096 →
      s.blk.writeRefused u t (u.addr - base) bs.length = false →
      let off := u.addr - base
      let b : Blk := { s.blk with mx := { s.blk.mx with no := s.blk.mx.no + 1, park := Tab.set (fun _ => 0) s.blk.mx.park t (u.master + 1) } }
      ∃ r, exec (.matrixBurst u false) s = .next r ∧ r.pending = s.pending ∧ r.blk.mx.waits = []
        ∧ r.blk.mx.resp = s.blk.mx.resp.filter (fun x => x.1 != u.master) ++ [(u.master, 0, [])]
        ∧ (t = 4 ∨ t = 7 → r.mem = s.mem)
        ∧ (t = 4 → Only [] [] { b with anise := r.blk.anise, clove := r.blk.clove, mx := { b.mx with
            resp := r.blk.mx.resp, fills := r.blk.mx.fills, uncommitted := r.blk.mx.uncommitted } } r.blk)
        ∧ (∀ k, t = 4 → off = 32 * k → bs.length = 32 → k < 4096 →
          (∀ j, j ≠ k → r.blk.aniseSlot j = s.blk.aniseSlot j) ∧ r.blk.clove = s.blk.clove
          ∧ ∀ i, i < 32 → byteAt (r.blk.aniseSlot k) i =
            if u.master = 2 ∨ u.master = 3 then
              (if i = 20 then (byteAt bs 20 &&& 0x3E) ||| 1 else if i = 21 then byteAt bs 21 &&& 0x0F else if 28 ≤ i then 0 else byteAt bs i)
            else if i = 19 then byteAt bs 19 &&& 0x1F
            else if i = 20 then (byteAt (s.blk.aniseSlot k) 20 &&& 0xD6) ||| (byteAt bs 20 &&& 0x20) ||| 1 else byteAt (s.blk.aniseSlot k) i)
        ∧ (∀ k, t = 4 → off = 131072 + 16 * k → bs.length = 16 → r.blk.cloveSlot k = bs.take 14 ++ [0, 0]
          ∧ (∀ j i, j ≠ k → i < 14 → byteAt (r.blk.cloveSlot j) i = byteAt (s.blk.cloveSlot j) i) ∧ r.blk.anise = s.blk.anise)
        ∧ (t = 5 → r.mem = { s.mem with dict := r.mem.dict }
          ∧ ∀ a, Config.recordAt a ≠ some K.ECC_INJECT → (∀ k i, i < bs.length → Config.recordAt (off + i) = some k → a ≠ Config.recordFirst k + 3) →
            Tab.get zeroByte r.mem.dict a = if off ≤ a ∧ a < off + bs.length then byteAt bs (a - off) else Tab.get zeroByte s.mem.dict a)
        ∧ (∀ k e, t = 5 → bs.length = 4 → off = Config.recordFirst k + 8 → (∀ i, i < 4 → Config.recordAt (off + i) = some k) → k ≠ K.ECC_INJECT →
          entryAt k = some e → (e.acc = .rw ∨ e.acc = .cfg) → (e.typ = .uns ∨ e.typ = .int) → e.lo = 4 →
          r.blk.reg k = leVal bs ∧ k ∈ r.blk.mx.uncommitted)
        ∧ (t = 7 → Only [K.MX_LOCK_STATUS] [] { b with
            pins := { b.pins with remap := r.blk.pins.remap }, tiles := r.blk.tiles,
            mx := { b.mx with resp := r.blk.mx.resp, remapWait := r.blk.mx.remapWait, remapAt := r.blk.mx.remapAt } } r.blk)
        ∧ (t = 7 → bs.length = 4 → r.blk.pins.remap = (s.blk.pins.remap || decide (off = 0 ∧ bit (leVal bs) 0 = true))
          ∧ r.blk.mx.remapWait = decide (off = 0 ∧ bit (leVal bs) 0 = true ∧ s.blk.pins.remap = false)
          ∧ (∀ i, bit (r.blk.reg K.MX_LOCK_STATUS) i = (bit (s.blk.reg K.MX_LOCK_STATUS) i
              && !(decide (off = 0x100 ∧ i < 10 ∧ bit (leVal bs) i = true) && !s.blk.setNow (512 + i))))
          ∧ ∀ k, r.blk.tile k = if off = 0x1000 + 32 * k + 12 ∧ k < 128 ∧ bit (leVal bs) 3 = true ∧ s.blk.setNow (128 + k) = false
              then { s.blk.tile k with deadRead := false } else s.blk.tile k))
  ∧ ((∀ (s : State) (u : Burst), burstOk u = true → s.blk.mxHeld u.master = false → s.blk.mx.waits = [] → s.blk.flt.trWait = [] →
      ∀ t base size, s.blk.mxEnabled u.master = true → s.blk.mxRouteNow u true = some (t, base, size) → 8 ≤ t → s.blk.lockOf t = none →
      s.blk.mx.remapWait = false → u.lock = false → u.addr / 4096 = (u.addr + burstLen u - 1) / 4096 → u.addr - base + burstLen u ≤ size →
      let off := u.addr - base
      let n := burstLen u
      let b : Blk := { s.blk with mx := { s.blk.mx with no := s.blk.mx.no + 1, park := Tab.set (fun _ => 0) s.blk.mx.park t (u.master + 1) } }
      let jobs := s.blk.windowJobs t off n
      let ports := (s.blk.svPort false).isSome = true ∧ (u.write = true → (s.blk.svPort true).isSome = true)
      let taken := u.write = true → s.blk.windowWrites t off n = true
      (taken → ports → jobs = [] → exec (.matrixBurst u false) s = s.becomes (b.mxResp u.master 0 (if u.write then [] else List.replicate n 0)))
      ∧ (taken → ports → jobs ≠ [] → exec (.matrixBurst u false) s = s.becomes { b with mx := { b.mx with waits :=
          [{ burst := u, since := s.blk.tick.wall, why := 4, no := s.blk.mx.no, tick := s.blk.tick.tick, en := s.blk.mxEnabled u.master,
             granted := s.blk.tick.wall + 1, jobs := jobs }] } })
      ∧ (∀ kind, (¬taken ∧ kind = 5) ∨ (taken ∧ ¬ports ∧ kind = 6) → ∃ r, exec (.matrixBurst u false) s = .next r ∧ s.SameMemory r
          ∧ r.blk.recAt K.MX_ERR_LAST = leBytes 8 s.blk.stamp.toNat ++ [BitVec.ofNat 8 u.master, BitVec.ofNat 8 t, BitVec.ofNat 8 kind, 0] ++ leBytes 4 u.addr
          ∧ r.blk.mx.resp = s.blk.mx.resp.filter (fun x => x.1 != u.master) ++ [(u.master, 1, [])] ∧ r.blk.mx.waits = []))
    ∧ (∀ (s : State) (p : Nat) (c : Cand) (w : MxWait) (slot r q base size t : Nat), s.blk.Settled → s.blk.Unheld → s.blk.flt.trWait = [] →
        s.blk.AloneOn s.mem p [] c → c.id = 15 → p < 6 → s.blk.mx.waits = [w] → w.why = 4 → w.behalf = false → w.wid = none →
        s.blk.lockOf t = none → w.burst.lock = false → w.jobs = [(slot, r, q)] → mxTarget w.burst.addr = some (t, base, size) → t = 8 ∨ t = 9 →
        s.blk.active p = true → s.blk.active (8 + s.blk.groupOf slot r) = true → s.blk.rowRead slot r = .stored → s.mem.marks = [] →
        shapeOk (s.blk.tile slot).shape = true → s.blk.seenTile slot = s.blk.tile slot →
        let off := w.burst.addr - base
        let n := burstLen w.burst
        let row0 := if t = 8 then 65536 * slot + 1024 * r else 8192 * slot + 128 * r
        (w.burst.write = false → w.writing = false → w.gathered = [] → row0 ≤ off → q < 4 →
          (t = 8 → 256 * q + 256 ≤ shRB (s.blk.tile slot).shape ∧ (off + n - 1 - row0) / 256 = q ∧ (off - row0) / 256 = q) →
          (t = 9 → q = 0 ∧ off + n - row0 ≤ 128) → 0 < n →
          ∃ x, exec (.sumacRound p [] [] []) s = .next x ∧ s.SameMemory x ∧ x.blk.mx.waits = []
            ∧ (∃ bytes, x.blk.mx.resp = s.blk.mx.resp.filter (fun y => y.1 != w.burst.master) ++ [(w.burst.master, 0, bytes)]
              ∧ bytes.length = n ∧ ∀ i, i < n → (t = 8 ∨ off + i - row0 < 64) → byteAt bytes i =
                if t = 8 then s.mem.rowByte s.blk slot r (off + i - row0) else s.mem.sbByte s.blk slot r (off + i - row0)))
        ∧ (w.burst.write = true → w.writing = false → s.blk.windowRow slot r = true → ∃ (x : State) (g : List (Nat × List Byte)),
            exec (.sumacRound p [] [] []) s = .next x ∧ s.SameMemory x ∧ x.blk.writes = s.blk.writes
            ∧ x.blk.mx.waits = [{ w with begun := true, next := s.blk.tick.wall + 7, writing := true, gen := (s.blk.tile slot).gen, gathered := g }])
        ∧ (w.burst.write = true → w.writing = true → w.gen = (s.blk.tile slot).gen → ∀ pay sb, w.gathered = [(0, pay), (1, sb)] →
            let put (k : Nat) (old : Byte) : Byte := (if off ≤ row0 + k then (w.burst.data[row0 + k - off]?).getD none else none).getD old
            let kept (i : Nat) : Byte := if t = 8 then byteAt sb i else put i (byteAt sb i)
            ∃ (x : State) (v : RowWrite), exec (.sumacRound p [] [] []) s = .next x ∧ s.SameMemory x ∧ x.blk.writes = s.blk.writes ++ [v]
              ∧ v.kind = .sv ∧ v.slot = slot ∧ v.row = r ∧ v.quarters = [q] ∧ v.gen = w.gen ∧ v.wallDue = true ∧ v.due = s.blk.tick.wall + 9
              ∧ (∀ k, k < 1024 → k / 256 = q → byteAt v.payload k = if t = 8 then put k (byteAt pay k) else byteAt pay k)
              ∧ (∀ i, i < 64 → byteAt v.sb i = kept i)
              ∧ fieldAt v.sb 64 8 = (mkStamp s.blk.tick.tick s.blk.tick.lcyc q).toNat ∧ fieldAt v.sb 80 2 = (s.blk.tile slot).epoch % 65536
              ∧ byteAt v.sb 82 = byteAt sb 82 ∧ (∀ i, 85 ≤ i → byteAt v.sb i = 0)
              ∧ x.blk.mx.waits = [{ w with jobs := [], writing := false, wid := some s.blk.wNo }]))
    ∧ (∀ (s : State) (w : MxWait) (v : RowWrite), s.blk.Settled → s.blk.flt.trWait = [] → s.blk.mx.waits = [w] → w.why = 4 → w.behalf = false →
        w.wid = some v.wid → w.jobs = [] → w.burst.write = true → s.blk.writes.find? (fun x => x.wid == v.wid) = some v → v.kind = .sv → v.leaves = none →
        s.blk.active (8 + s.blk.groupOf v.slot v.row) = true → (s.blk.tile v.slot).gen = v.gen → shapeOk (s.blk.tile v.slot).shape = true →
        ∃ x, exec (.rowWriteComplete ⟨v.wid, false⟩) s = .next x ∧ x.pending = s.pending ∧ x.blk.mx.waits = []
          ∧ x.blk.mx.resp = s.blk.mx.resp.filter (fun y => y.1 != w.burst.master) ++ [(w.burst.master, 0, [])]))

/-- An access that times out is taken from the matrix and answered with an abort: counted for its master and recorded, a decode error also
as one; a master's abort has its own effect: the sequencer's data port takes the cell out, M1 enters a warning, M2 aborts the ring request
that caused it, M3 ends the save or restore with status 5, M4 loses a trace record, M5 is told. A lock held too long is broken, counted
and entered with class 1 (12_service_matrix.md R297, R298, R306, R307, R312; 11_sequencer.md R285). The model's choice: log entries 8 and
21. -/
def Obligations.MatrixTimeoutsAbortAndBreakLocks : Prop :=
  ∀ s : State,
    (∀ w : MxWait, s.blk.mx.waits = [w] → w.burst.master < 6 → w.why ≠ 4 → w.why ≠ 6 → w.behalf = false → s.blk.flt.trWait = [] →
      s.blk.mx.freed.all (fun f => f.2 != w.burst.master && (w.burst.master != 0 || f.2 != 1)) = true →
      s.blk.mx.locks.all (fun l => l.2.1 != w.burst.master && (w.burst.master != 0 || l.2.1 != 1)) = true →
      let m := w.burst.master
      let tgt := if w.why = 0 then 255 else match mxTarget w.burst.addr with | some x => x.1 | none => 255
      ∃ t, exec (.matrixTimeout m) s = .next t ∧ s.SameMemory t ∧ t.blk.mx.waits = [] ∧ t.blk.mx.locks = s.blk.mx.locks
        ∧ t.blk.reg K.MX_DECODE_ERRS = (if w.why = 0 then min (s.blk.reg K.MX_DECODE_ERRS + 1) 0xFFFFFFFF else s.blk.reg K.MX_DECODE_ERRS)
        ∧ fieldAt (t.blk.recAt K.MX_TIMEOUTS) (4 * m) 4 = min (fieldAt (s.blk.record K.MX_TIMEOUTS 24) (4 * m) 4 + 1) 0xFFFFFFFF
        ∧ t.blk.recAt K.MX_ERR_LAST = leBytes 8 s.blk.stamp.toNat ++ [BitVec.ofNat 8 m, BitVec.ofNat 8 tgt,
            if w.why = 0 then 1 else 2, 0] ++ leBytes 4 w.burst.addr
        ∧ t.blk.mx.resp = s.blk.mx.resp.filter (fun r => r.1 != m) ++ [(m, 2, [])]
        ∧ (m = 0 → s.blk.lc ≠ .off → t.blk.Entered 0x0807 3 0 ∧ t.blk.reg K.SEQ_ECC_UE = min (s.blk.reg K.SEQ_ECC_UE + 1) 0xFFFFFFFF
          ∧ (s.blk.lc ≠ .boot → s.blk.lc ≠ .safe → t.blk.lc = .safe ∧ t.blk.reg K.SAFE_CAUSE = 0x0807 ∧ t.blk.pins.seqHeld = true))
        ∧ (m = 1 → t.blk.Entered 0x0901 1 (tgt % 256))
        ∧ (m = 2 → ∀ c rest, s.blk.ring.queue = c :: rest → t.blk.ring.queue = rest ∧ t.blk.ring.answers = s.blk.ring.answers
          ++ [mkFrame (BitVec.ofNat 8 (ringAddr c).1) 0x84 0 (ringAddr c).2.1 (ringAddr c).2.2 (leBytes 4 0x00040001)])
        ∧ (m = 2 → s.blk.ring.queue = [] → ∀ g, s.blk.ring.seg = some g → t.blk.ring.seg = none ∧ t.blk.ring.answers = s.blk.ring.answers
          ++ [mkFrame (BitVec.ofNat 8 g.node) 0x84 0 g.index g.sub (leBytes 4 0x00040001)])
        ∧ (m = 3 → s.blk.sr.phase ≠ 0 → t.blk.reg K.SR_STATUS = 5 ∧ t.blk.sr.phase = 0)
        ∧ (m = 4 → t.blk.reg K.TRACE_LOST = min (s.blk.reg K.TRACE_LOST + 1) 0xFFFFFFFF)
        ∧ (m = 5 → t.blk.mx.wrapperAbort = true) ∧ (3 ≤ m → t.blk.ring = s.blk.ring)
        ∧ (m ≠ 0 → m ≠ 3 ∨ s.blk.sr.phase = 0 → Only [K.MX_DECODE_ERRS, K.RING_ABORTS_SENT]
            [K.MX_TIMEOUTS, K.MX_ERR_LAST, K.RING_ABORT_LAST] { s.blk with ring := t.blk.ring, mx := { s.blk.mx with
            waits := [], resp := t.blk.mx.resp, wrapperAbort := s.blk.mx.wrapperAbort || m == 5 } } t.blk))
    ∧ (∀ x owner since, s.blk.mx.waits = [] → s.blk.flt.trWait = [] → s.blk.lockOf x = some (x, owner, since) → x < 10 →
      ∃ t, exec (.lockTimeout x) s = .next t ∧ s.SameMemory t ∧ t.blk.Entered 0x0902 1 x
        ∧ (∀ l, l ∈ t.blk.mx.locks ↔ l ∈ s.blk.mx.locks ∧ l.1 ≠ x) ∧ bit (t.blk.reg K.MX_LOCK_STATUS) x = true
        ∧ t.blk.reg K.MX_LOCKS_BROKEN = min (s.blk.reg K.MX_LOCKS_BROKEN + 1) 0xFFFFFFFF
        ∧ fieldAt (t.blk.recAt K.MX_ERR_LAST) 8 1 = owner % 256 ∧ fieldAt (t.blk.recAt K.MX_ERR_LAST) 10 1 = 9
        ∧ Only [K.MX_LOCK_STATUS, K.MX_LOCKS_BROKEN] [K.MX_ERR_LAST] { s.blk with
            fresh := s.blk.fresh + 1,
            mx := { s.blk.mx with
              locks := t.blk.mx.locks, freed := s.blk.mx.freed.filter (fun f => f.2 != owner), owners := Tab.set (fun _ => 0) s.blk.mx.owners x owner } } t.blk)

/-! ### The ring -/

/-- A frame goes on with one cycle's delay while the bridge is not started, in reset or fenced; else a frame of another node waits for
forwarding, Doluo's own frame that has gone round is taken out and counted, and one with a wrong CRC is counted and not answered, while
one with reserved fields is aborted with code 0x0001_0005. The heartbeat reports the state of the block (01_boundary.md R20; 13_evien.md
R313 to R316, R323). The model's choice: log entry 13. -/
def Obligations.FramesAreForwardedCountedOrAnswered : Prop :=
  ∀ (s : State) (f : List Byte),
    let off := s.blk.lc = .off ∨ s.blk.pins.bridgeOn = false ∨ s.blk.pins.ringLow = true ∨ s.blk.ring.fenced = true
    let crcOk : Bool := decide (2 ≤ f.length) && (crc16 (f.take (f.length - 2)) == fieldAt f (f.length - 2) 2)
    (off → exec (.forwardFrame f) s = s.becomes { s.blk with ring := { s.blk.ring with sent := f } })
    ∧ (¬off → byteAt f 1 = Config.nodeAddr → exec (.forwardFrame f) s = s.becomes (s.blk.count K.RING_RETURNED))
    ∧ (¬off → byteAt f 1 ≠ Config.nodeAddr → byteAt f 0 ≠ Config.nodeAddr → s.blk.ring.forward.length < 2 → exec (.forwardFrame f) s =
      s.becomes { s.blk with ring := { s.blk.ring with forward := s.blk.ring.forward ++ [f] } })
    ∧ (¬off → byteAt f 1 ≠ Config.nodeAddr → byteAt f 0 ≠ Config.nodeAddr → ∀ g h, s.blk.ring.forward = [g, h] →
      exec (.forwardFrame f) s = s.becomes { s.blk with ring := { s.blk.ring with sent := g, forward := [h, f] } })
    ∧ (¬off → byteAt f 1 ≠ Config.nodeAddr → byteAt f 0 = Config.nodeAddr → exec (.forwardFrame f) s = .next s)
    ∧ (¬off → ∀ early, early = true ∨ crcOk = false → exec (.frameDiscarded f early) s = s.becomes (s.blk.count K.RING_CRC_ERRS))
    ∧ (¬off → s.blk.ringUp = true → crcOk = true → ((byteAt f 2).toNat % 16 = 0 ∨ 7 ≤ (byteAt f 2).toNat % 16 ∨
        (byteAt f 2).toNat / 16 % 8 ≠ 0 ∨ 16 ≤ (byteAt f 3).toNat ∨
        8 < (byteAt f 7).toNat) → ∃ t, exec (.frameDiscarded f false) s = .next t ∧ s.SameMemory t
      ∧ t.blk.ring.answers = s.blk.ring.answers ++ [mkFrame (byteAt f 1) 0x84 0 (fieldAt f 4 2) (byteAt f 6).toNat (leBytes 4 0x00010005)]
      ∧ t.blk.reg K.RING_ABORTS_SENT = min (s.blk.reg K.RING_ABORTS_SENT + 1) 0xFFFFFFFF
      ∧ Only [K.RING_ABORTS_SENT] [K.RING_ABORT_LAST] { s.blk with ring := { s.blk.ring with answers := t.blk.ring.answers } } t.blk)
    ∧ (s.blk.ringUp = true → s.blk.rw K.HEARTBEAT_TICKS ≠ 0 → ∃ t, exec .heartbeat s = .next t ∧ s.SameMemory t
      ∧ t.blk.ring.beatDue = false ∧ (s.blk.ring.beatDue = false → t.blk.ring.hbCount = 0 ∧ t.blk.ring.hbWall = 0)
      ∧ (s.blk.ring.beatDue = true → t.blk.ring.hbCount = s.blk.ring.hbCount ∧ t.blk.ring.hbWall = s.blk.ring.hbWall)
      ∧ t.blk.ring.answers = s.blk.ring.answers ++ [mkFrame (BitVec.ofNat 8 (s.blk.rw K.RING_DEST)) 5 0 0x1017 0
          ([BitVec.ofNat 8 s.blk.lc.code, BitVec.ofNat 8 (s.blk.reg K.ID_FLAGS), BitVec.ofNat 8 s.blk.errorReg,
            BitVec.ofNat 8 s.blk.flt.out] ++ leBytes 4 (s.blk.tick.tick % 2 ^ 32))]
      ∧ t.blk = { s.blk with ring := t.blk.ring } ∧ t.blk.ring.seg = s.blk.ring.seg ∧ t.blk.ring.emcy = s.blk.ring.emcy)

/-! ### The dictionary -/

/-- An index that the object map does not list, and every index from 0xA000 on, gives abort code 0x0002_0001, and a sub-index that an
object does not define 0x0002_0002: for reads and writes, expedited and segmented (14_dictionary.md R335). -/
def Obligations.UnknownEntriesAreRefused : Prop :=
  ∀ (s : State) (node index sub : Nat), s.blk.Calm → s.blk.Serving → s.blk.ring.seg = none → sub < 256 →
    let refused (c : Nat) : Host.Outcome State Fault Refusal := s.becomes (s.blk.abortReply node index sub c)
    let answers (code : Nat) : Prop := (∀ v, exec (.expeditedWrite node index sub v) s = refused code)
      ∧ (∀ v, exec (.dictWrite node index sub v) s = refused code) ∧ exec (.expeditedRead node index sub) s = refused code
      ∧ ∀ read size, exec (.segmentInitiate node index sub read size) s = refused code
    (objects.any (fun o => o.1 == index) = false ∨ 0xA000 ≤ index → answers 0x00020001)
    ∧ (objects.any (fun o => o.1 == index) = true → entryAt (256 * index + sub) = none → answers 0x00020002)

/-! ### The ring -/

/-- A read answers with the entry's bytes. A request that a check refuses changes nothing but `RING_ABORTS_SENT` and `RING_ABORT_LAST`,
and is answered with the code of the first check that fails; a read of an uncommitted record enters its warning too; without a bridge in
service there is no answer (13_evien.md R317, R321; 14_dictionary.md R332; 12_service_matrix.md R309). Behind a request that waits in the
bridge, another one waits too, the oldest first; the queue holds four, and a full one refuses the next with 0x0001_0004. A read or write
of a record waits while another master has locked the dictionary store (13_evien.md R318; 12_service_matrix.md R305). The model's choice:
log entries 41, 47 and 48. -/
def Obligations.RequestsAnswerOrAbort : Prop :=
  (∀ (s : State) (node index sub : Nat), s.blk.Calm →
      let k := 256 * index + sub
      let refused (c : Nat) : Host.Outcome State Fault Refusal := s.becomes (s.blk.abortReply node index sub c)
      (s.blk.ringUp = false → ∀ v, exec (.expeditedRead node index sub) s = .next s ∧ exec (.expeditedWrite node index sub v) s = .next s)
      ∧ (s.blk.Serving → sub < 256 →
        ∀ e, entryAt k = some e →
          (e.acc = .wo → exec (.expeditedRead node index sub) s = refused 0x00020004)
          ∧ (e.acc ≠ .wo → e.typ = .domain → exec (.expeditedRead node index sub) s = refused 0x00020006)
          ∧ (e.acc ≠ .wo → (e.typ = .uns ∨ e.typ = .int) → s.blk.mx.uncommitted.contains k = true →
            exec (.expeditedRead node index sub) s = s.becomes ((s.blk.event 0x0903 1 255).abortReply node index sub 0x00030006))
          ∧ (e.acc ≠ .wo → (e.typ = .uns ∨ e.typ = .int) → s.blk.mx.uncommitted.contains k = false →
            exec (.expeditedRead node index sub) s = s.becomes (s.blk.reply node 0x81 0 index sub (leBytes e.lo (s.blk.scalar k))))
          ∧ (e.acc = .ro ∨ e.acc = .const → ∀ v, exec (.expeditedWrite node index sub v) s = refused 0x00020003)
          ∧ (e.acc = .rw ∨ e.acc = .cfg → (e.typ = .uns ∨ e.typ = .int) → ∀ v : List Byte,
            (v.length ≠ e.lo → exec (.expeditedWrite node index sub v) s = refused 0x00020005)
            ∧ (v.length = e.lo → e.acc = .cfg → s.blk.lc ≠ .configured → exec (.expeditedWrite node index sub v) s = refused 0x00030002)
            ∧ (v.length = e.lo → s.blk.lc = .configured → e.rng.ok (leVal v) = false → s.blk.sr.phase = 0 → s.blk.pins.bist = 0 →
              s.blk.pwr.waitAck = none → exec (.expeditedWrite node index sub v) s = refused 0x00030001))))
  ∧ (∀ (s : State) (node index sub : Nat) (c : Instr), s.blk.ringUp = true → s.blk.ring.now = false →
      c = .expeditedRead node index sub ∨ (∃ v, c = .expeditedWrite node index sub v)
        ∨ (∃ read size, c = .segmentInitiate node index sub read size) →
      (s.blk.ring.queue ≠ [] → s.blk.ring.queue.length < 4 →
        exec c s = s.becomes { s.blk with ring := { s.blk.ring with queue := s.blk.ring.queue ++ [c] } })
      ∧ (4 ≤ s.blk.ring.queue.length → exec c s = s.becomes (s.blk.abortReply node index sub 0x00010004))
      ∧ (∀ e l, s.blk.ring.queue = [] → (∀ read size, c ≠ .segmentInitiate node index sub read size) →
        entryAt (256 * index + sub) = some e → hasRecord e = true → s.blk.lockOf 5 = some l → l.2.1 ≠ 1 →
        ∃ w : MxWait, w.ring = true ∧ w.burst.master = 1 ∧ (mxTarget w.burst.addr).map (fun x => x.1) = some 5 ∧ w.why = 2
          ∧ w.since = s.blk.tick.wall
          ∧ exec c s = s.becomes { s.blk with
              mx := { s.blk.mx with no := s.blk.mx.no + 1, waits := s.blk.mx.waits ++ [w] }, ring := { s.blk.ring with queue := [c] } }))

/-- A segmented read snapshots its value and answers its size; each segment then answers with the next eight bytes, and the last ends the
transfer. A segmented write gathers its bytes. A transfer that is open refuses another, a wrong toggle or a timeout ends it with its abort
code, and the requester's abort ends it silently; a segment of no open transfer is answered with an abort, whose code is a free value
(13_evien.md R316, R319 to R321; log entry 73). The model's choice: log entries 23 and 24. -/
def Obligations.SegmentedTransfersMoveEightBytes : Prop :=
  ∀ (s : State) (node index sub : Nat), s.blk.Serving → s.blk.Calm →
    let k := 256 * index + sub
    (∀ g, s.blk.ring.seg = some g →
      (∀ read size, exec (.segmentInitiate node index sub read size) s = s.becomes (s.blk.abortReply node index sub 0x00010004))
      ∧ exec .segmentTimeout s =
        s.becomes (({ s.blk.count K.RING_SEG_TIMEOUTS with ring := { s.blk.ring with seg := none } } : Blk).abortReply g.node g.index g.sub
          0x00010002)
      ∧ (∀ code, exec (.requesterAbort g.index g.sub code) s = s.becomes { s.blk with ring := { s.blk.ring with seg := none } })
      ∧ (∀ (toggle last : Bool) (p : List Byte), p.length ≤ 8 → toggle ≠ g.toggle →
        exec (.segmentFrame g.node g.index g.sub toggle last p) s =
          s.becomes (({ s.blk with ring := { s.blk.ring with seg := none } } : Blk).abortReply g.node g.index g.sub 0x00010001))
      ∧ (g.read = true → liveEntry (256 * g.index + g.sub) = none → ∀ last,
        let n := min 8 (g.size - g.pos)
        let done : Bool := decide (g.size ≤ g.pos + n)
        exec (.segmentFrame g.node g.index g.sub g.toggle last []) s =
          s.becomes (({ s.blk with ring := { s.blk.ring with
              seg := if done then none else some { g with pos := g.pos + n, toggle := !g.toggle } } } : Blk).reply g.node 0x83
            (1 + (if done then 4 else 0) + if g.toggle then 8 else 0) g.index g.sub (slice g.data g.pos n)))
      ∧ (g.read = false → g.toggle = false → ∀ p : List Byte, p ≠ [] → p.length ≤ 8 → g.data.length + p.length < g.size →
        exec (.segmentFrame g.node g.index g.sub false false p) s =
          s.becomes (({ s.blk with ring := { s.blk.ring with seg := some { g with data := g.data ++ p, toggle := true } } } : Blk).reply
            g.node 0x83 0 g.index g.sub [])))
    ∧ (s.blk.ring.seg = none → ∀ (toggle last : Bool) (p : List Byte), p.length ≤ 8 → ∃ code,
      exec (.segmentFrame node index sub toggle last p) s = s.becomes { s.blk.abortReply node index sub code with fresh := s.blk.fresh + 1 })
    ∧ (s.blk.ring.seg = none → sub < 256 → ∀ e, entryAt k = some e → e.typ = .domain →
      (∀ size, e.acc ≠ .wo → liveEntry k = none → s.blk.mx.uncommitted.contains k = false →
        let v := entryBytes s.mem s.blk e
        exec (.segmentInitiate node index sub true size) s = s.becomes (({ s.blk with ring := { s.blk.ring with
          seg := some { node := node, index := index, sub := sub, read := true, size := v.length, data := v } } } : Blk).reply
            node 0x83 3 index sub (leBytes 4 v.length)))
      ∧ (∀ size, e.acc = .cfg → s.blk.lc = .configured → (k = K.IMAGE_LO ∨ k = K.IMAGE_HI → s.blk.reg K.IMAGE_STATE ≠ 1) → e.lo ≤ size →
        size ≤ e.hi → ∃ t, exec (.segmentInitiate node index sub false size) s = .next t ∧ s.SameMemory t
          ∧ t.blk.ring.answers = s.blk.ring.answers ++ [mkFrame (BitVec.ofNat 8 node) 0x83 2 index sub []]
          ∧ (∃ g, t.blk.ring.seg = some g ∧ g.node = node ∧ g.index = index ∧ g.sub = sub ∧ g.read = false ∧ g.size = size
            ∧ g.data = [] ∧ g.pos = 0 ∧ g.toggle = false)
          ∧ t.blk = { s.blk with ring := { s.blk.ring with seg := t.blk.ring.seg, answers := t.blk.ring.answers } }))

/-! ### The dictionary -/

/-- An event is written at position `EH_NEXT` with its code, class, unit, sequence number and stamp, and no other position changes;
`EH_NEXT` goes on, from 16 to 1, `EH_COUNT` grows to at most 16, and the `FAULT_OUT` bit of its class rises. From class 1 on it queues one
emergency frame with that position and the error register as it then stands, or counts `EMCY_LOST` where eight wait; while the bridge is
fenced or in reset, and for class 0, there is no frame (01_boundary.md R19; 14_dictionary.md R340, R341; 13_evien.md R324). -/
def Obligations.EventsEnterTheHistory : Prop :=
  let entered (b c : Blk) (code cls unit : Nat) : Prop :=
    let p := b.reg K.EH_NEXT
    let bridge := b.ring.fenced = false ∧ b.pins.ringLow = false
    c.recAt (K.EH_COUNT + p) = leBytes 2 code ++ [BitVec.ofNat 8 cls, BitVec.ofNat 8 unit] ++ leBytes 4 ((b.flt.ehSeq + 1) % 2 ^ 32)
        ++ leBytes 8 b.stamp.toNat
      ∧ c.flt.ehSeq = (b.flt.ehSeq + 1) % 2 ^ 32
      ∧ (∀ i, 1 ≤ i → i ≤ 16 → i ≠ p → c.recAt (K.EH_COUNT + i) = b.recAt (K.EH_COUNT + i))
      ∧ c.reg K.EH_NEXT = (if p = 16 then 1 else p + 1) ∧ c.reg K.EH_COUNT = min (b.reg K.EH_COUNT + 1) 16
      ∧ c.reg K.EH_TOTAL = min (b.reg K.EH_TOTAL + 1) 0xFFFFFFFF ∧ (∀ i, bit c.flt.out i = (bit b.flt.out i || decide (i = cls)))
      ∧ (cls = 0 ∨ ¬bridge → c.ring.emcy = b.ring.emcy ∧ c.reg K.EMCY_LOST = b.reg K.EMCY_LOST)
      ∧ (cls ≠ 0 → bridge → b.ring.emcy.length < 8 → c.reg K.EMCY_LOST = b.reg K.EMCY_LOST ∧ c.ring.emcy = b.ring.emcy
          ++ [mkFrame (BitVec.ofNat 8 (b.rw K.RING_DEST)) 6 0 0x1003 p (leBytes 2 code
              ++ [BitVec.ofNat 8 c.errorReg, BitVec.ofNat 8 cls] ++ leBytes 4 b.stamp.toNat)])
      ∧ (cls ≠ 0 → bridge → 8 ≤ b.ring.emcy.length → c.ring.emcy = b.ring.emcy
          ∧ c.reg K.EMCY_LOST = min (b.reg K.EMCY_LOST + 1) 0xFFFFFFFF)
  (∀ (b : Blk) (code cls unit : Nat), 1 ≤ b.reg K.EH_NEXT → b.reg K.EH_NEXT ≤ 16 →
    entered b (b.event code cls unit) code cls unit ∧ Only [] [] b (b.event code cls unit))
  ∧ ∀ s : State, (s.blk.lc = .boot ∨ s.blk.lc = .safe) → 1 ≤ s.blk.reg K.EH_NEXT → s.blk.reg K.EH_NEXT ≤ 16 →
    ∃ t, exec .tickUnitMismatch s = .next t ∧ s.SameMemory t ∧ entered s.blk t.blk 0x0B01 3 255

/-- An accepted write of an entry without behaviour of its own stores its value, in the register and, but for the three selects, as a
committed record of the dictionary store; the value in force stays until `ARM`; a valid image that the entry was checked against is no
longer valid; an RW value that the hardware uses is not in force in this cycle (14_dictionary.md R333, R334; 12_service_matrix.md R308;
10_descriptors.md R263; 06_sumac.md R146). The model's choice: log entries 45, 46 and 68. -/
def Obligations.PlainWritesAreStored : Prop :=
  ∀ (s : State) (node k v : Nat) (e : Entry) (c : Instr), s.blk.Calm → s.blk.Serving → entryAt k = some e →
    (e.acc = .rw ∨ e.acc = .cfg) → (e.typ = .uns ∨ e.typ = .int) →
    k ∉ [K.EH_COUNT, K.PWR_BLOCK, K.PWR_IDLE_PORTS, K.PWR_IDLE_GROUPS] → (e.acc = .cfg → s.blk.lc = .configured) →
    e.rng.ok v = true → v < 256 ^ e.lo →
    (c = .dictWrite node (k / 256) (k % 256) v ∨ c = .expeditedWrite node (k / 256) (k % 256) (leBytes e.lo v)
      ∨ (k = K.ECC_INJECT ∧ c = .eccInject node v)
      ∨ ∃ (port id : Nat) (value : Int), port < 6 ∧ id < 16 ∧ -(2 ^ 31) ≤ value ∧ value < 2 ^ 31 ∧ k = K.REQ_BIAS + 16 * port + id
        ∧ v = ofSigned 32 value ∧ c = .reqBias node port id value) →
    let sel := k ∈ [K.REQ_SELECT, K.TILE_SELECT, K.ANISE_SELECT]
    let checked := (0x200001 ≤ k ∧ k ≤ 0x200004) ∨ (0x220001 ≤ k ∧ k ≤ 0x220009) ∨ k = 0x250001
    ∃ t, exec c s = .next t ∧ t.pending = s.pending ∧ t.mem = (if sel then s.mem else s.mem.withRecord k e.lo v) ∧ t.blk.reg k = v
      ∧ t.blk.force = s.blk.force
      ∧ (checked → s.blk.reg K.IMAGE_STATE = 2 → t.blk.reg K.IMAGE_STATE = 4)
      ∧ (¬checked ∨ s.blk.reg K.IMAGE_STATE ≠ 2 → t.blk.reg K.IMAGE_STATE = s.blk.reg K.IMAGE_STATE)
      ∧ t.blk.pins = { s.blk.pins with
          invalidate := s.blk.pins.invalidate || decide (checked ∧ s.blk.reg K.IMAGE_STATE = 1) }
      ∧ (delayedKey k = true → t.blk.rw k = s.blk.rw k) ∧ (delayedKey k = false → t.blk.rwWait = s.blk.rwWait)
      ∧ Only [k, K.IMAGE_STATE] [] ({ (if sel then s.blk else s.blk.commitRecord k) with
          pins := t.blk.pins, rwWait := t.blk.rwWait }.answered node k) t.blk

/-- Firmware and image values are stored in program RAM from their first byte on, and no other byte of any memory; an image write makes a
valid image stale. `LOAD_IMAGE` starts a validation, whose end counts it and reports a valid image, whose replay index it places in data
RAM, or the first failure (11_sequencer.md R271, R277; 10_descriptors.md R256, R260 to R264). The model's choice: log entry 24. -/
def Obligations.ImagesAreWrittenLoadedAndValidated : Prop :=
  ∀ s : State, s.blk.Calm →
    (∀ (node base : Nat) (data : List Byte) (c : Instr) (k : Nat), s.blk.RingIdle → s.blk.ring.seg = none → data.length ≤ 65536 →
      ((s.blk.lc = .configured ∧ s.blk.reg K.IMAGE_STATE ≠ 1 ∧ 1 ≤ data.length
          ∧ ((c = .imageRegionWrite node false data ∧ k = K.IMAGE_LO ∧ base = 131072)
            ∨ (c = .imageRegionWrite node true data ∧ k = K.IMAGE_HI ∧ base = 196608)))
        ∨ (s.blk.lc = .boot ∧ s.blk.pins.bootPhase ≠ 2 ∧ 64 ≤ data.length
          ∧ ((c = .fwImageWrite node false data ∧ k = K.FW_SERVICE ∧ base = 0)
            ∨ (c = .fwImageWrite node true data ∧ k = K.FW_RUNTIME ∧ base = 65536)))) →
      let image := k = K.IMAGE_LO ∨ k = K.IMAGE_HI
      ∃ t, exec c s = .next t ∧ t.pending = s.pending ∧ t.mem = { s.mem with prog := t.mem.prog }
        ∧ (∀ a, Tab.get zeroByte t.mem.prog a = if base ≤ a ∧ a < base + data.length then byteAt data (a - base)
            else Tab.get zeroByte s.mem.prog a)
        ∧ (image → s.blk.reg K.IMAGE_STATE = 2 → t.blk.reg K.IMAGE_STATE = 4)
        ∧ (¬image ∨ s.blk.reg K.IMAGE_STATE ≠ 2 → t.blk.reg K.IMAGE_STATE = s.blk.reg K.IMAGE_STATE)
        ∧ Only [K.IMAGE_STATE] [] ({ s.blk with
            imgLo := if k = K.IMAGE_LO then data.length else s.blk.imgLo,
            imgHi := if k = K.IMAGE_HI then data.length else s.blk.imgHi }.segReplies node (k / 256) (k % 256) data.length true) t.blk)
    ∧ (∀ node, s.blk.RingIdle → s.blk.lc = .configured → s.blk.reg K.IMAGE_STATE ≠ 1 → s.blk.pins.bist = 0 →
      exec (.loadImage node 1) s = s.becomes (({ s.blk.cmdLast 1 0 0 with
        pins := { s.blk.pins with validating := true, invalidate := false } }.setReg K.IMAGE_STATE 1).answered node K.LOAD_IMAGE))
    ∧ (s.blk.reg K.IMAGE_STATE = 1 →
      ∃ t, exec .imageValidationDone s = .next t ∧ t.pending = s.pending ∧ t.mem = { s.mem with dram := t.mem.dram }
        ∧ (t.blk.reg K.IMAGE_STATE ≠ 2 → t.mem = s.mem) ∧ t.blk.reg K.LOAD_COUNT = min (s.blk.reg K.LOAD_COUNT + 1) 0xFFFFFFFF
        ∧ (s.blk.pins.invalidate = true → t.blk.reg K.IMAGE_STATE = 4)
        ∧ (s.blk.pins.invalidate = false → ∀ f, validateImage s.mem s.blk s.blk.imgLo s.blk.imgHi = some f →
          t.blk.reg K.IMAGE_STATE = 3 ∧ t.blk.recAt K.LOAD_REPORT = f.bytes
          ∧ t.blk.reg K.LOAD_REJECTS = min (s.blk.reg K.LOAD_REJECTS + 1) 0xFFFFFFFF)
        ∧ (s.blk.pins.invalidate = false → validateImage s.mem s.blk s.blk.imgLo s.blk.imgHi = none →
          t.blk.reg K.IMAGE_STATE = 2 ∧ t.blk.reg K.IMAGE_CRC = s.mem.imgVal 28 4 ∧ t.blk.recAt K.IMAGE_BUILD = s.mem.img 48 16
          ∧ fieldAt (t.blk.recAt K.LOAD_REPORT) 0 2 = 0 ∧ t.blk.reg K.LOAD_REJECTS = s.blk.reg K.LOAD_REJECTS)
        ∧ Only [K.IMAGE_STATE, K.LOAD_COUNT, K.LOAD_REJECTS, K.IMAGE_CRC, K.NEG_LEVEL] [K.LOAD_REPORT, K.IMAGE_BUILD] { s.blk with
            pins := { s.blk.pins with validating := false, invalidate := false } } t.blk)

/-- `ARM` puts every RW-CFG value in force, brings the tiles to a consistent state, makes uncommitted Anise slots cold and every unit
Active, and leads to Armed; without a valid image, or a runtime that has started, it is refused with event 0x0802 (14_dictionary.md R333,
R348; 03_tile_registers.md R83; 11_sequencer.md R281, R284; 12_service_matrix.md R309; 15_states_power.md R360; 02_tick.md R34). The
model's choice: log entries 44, 49 and 69. -/
def Obligations.ArmPutsValuesInForce : Prop :=
  ∀ (s : State) (node : Nat), s.blk.Calm → s.blk.RingIdle → s.blk.lc = .configured → s.blk.pins.bist = 0 → s.blk.Untangled →
    (s.blk.reg K.IMAGE_STATE = 2 → s.blk.pins.schedRun = true → s.blk.reg K.PLAT_MAX ≠ 0 →
      8192 + s.blk.reg K.GUARD + s.blk.reg K.RECOMP_RESERVE + s.blk.reg K.FAULT_SLACK ≤ s.blk.reg K.TICK_LEN →
      s.blk.reg K.SYNC_WINDOW ≤ s.blk.reg K.GUARD → s.blk.reg K.TICK_LEN = s.mem.imgVal 12 4 →
      s.blk.reg K.RECOMP_RESERVE = s.mem.imgVal 16 4 → s.blk.mx.uncommitted = [] →
      (s.blk.reg K.STRICT_PAIRS = 1 → bit (s.blk.reg K.ID_FLAGS) 0 = false) → s.blk.reg K.PWR_BLOCK = 0 →
      ∃ t, exec (.arm node 1) s = .next t ∧ t.pending = s.pending
        ∧ t.mem = (s.mem.withRecord K.PWR_IDLE_GROUPS 1 0).withRecord K.PWR_IDLE_PORTS 1 0
        ∧ t.blk.lc = .armed ∧ (∀ k, t.blk.cfg k = t.blk.reg k) ∧ t.blk.epOff = s.blk.reg K.EP_DISABLE
        ∧ t.blk.mx = { s.blk.mx with fills := t.blk.mx.fills }
        ∧ (∀ u, u < 16 → t.blk.idleBit u = false) ∧ t.blk.reg K.PWR_IDLE_PORTS = 0 ∧ t.blk.reg K.PWR_IDLE_GROUPS = 0
        ∧ (∀ k, k < 128 → let x := s.blk.tile k
            t.blk.tile k = if x.state = .loading ∨ x.state = .overflowed
              then { x with state := .damaged, pinned := false, lastStamp := s.blk.stamp, gen := nextGen false x.gen }
              else { x with pinned := false, abandoned := x.abandoned || x.state == .part })
        ∧ (∀ k, 128 ≤ k → t.blk.tile k = s.blk.tile k)
        ∧ (Tab.wf aniseDefault s.blk.anise → ∀ n, t.blk.aniseSlot n = if (byteAt (s.blk.aniseSlot n) 20).getLsbD 0 then s.blk.aniseSlot n
            else aniseReset (s.blk.reg K.ANISE_MARGIN_INIT) (s.blk.reg K.WARM_USES))
        ∧ Only [K.PWR_IDLE_PORTS, K.PWR_IDLE_GROUPS, K.ID_FLAGS] [K.CMD_LAST] ({ s.blk with
            lc := .armed, force := t.blk.force, epOff := t.blk.epOff, sched := { on := true }, tiles := t.blk.tiles, anise := t.blk.anise,
            ckpt := t.blk.ckpt, mx := t.blk.mx, aniseNow := t.blk.aniseNow,
            pwr := { s.blk.pwr with
              portsIdle := 0, groupsIdle := 0, wakes := [], sleeps := [], nextPorts := none, nextGroups := none } }.answered node K.ARM) t.blk)
    ∧ (s.blk.reg K.IMAGE_STATE ≠ 2 ∨ s.blk.pins.schedRun = false ∨ s.blk.reg K.PLAT_MAX = 0 → ∃ t, exec (.arm node 1) s = .next t ∧ s.SameMemory t ∧ t.blk.Entered 0x0802 0 4
      ∧ t.blk.recAt K.CMD_LAST = leBytes 8 s.blk.stamp.toNat ++ [2, 1, 0, 0] ++ leBytes 4 0x00030004
      ∧ t.blk.ring.answers = s.blk.ring.answers ++ [mkFrame (BitVec.ofNat 8 node) 0x84 0 0x2F00 2 (leBytes 4 0x00030004)]
      ∧ Only [K.RING_ABORTS_SENT] [K.CMD_LAST, K.RING_ABORT_LAST] { s.blk with
          ring := { s.blk.ring with answers := t.blk.ring.answers } } t.blk)

/-- Each clear entry clears what it names and nothing else, but for what an event of this cycle has set: acknowledged fault classes 0 to
2, the lost-sync bit, dead-read marks, the error history, hogging flags, broken-lock bits, the trace, the cold-scale flag (01_boundary.md
R19; 02_tick.md R40; 03_tile_registers.md R68; 14_dictionary.md R341, R346, R351; 16_faults.md R392; 06_sumac.md R145;
12_service_matrix.md R312; 09_numerics.md R232). The model's choice: log entry 81. -/
def Obligations.ClearEntriesClearWhatTheyName : Prop :=
  ∀ (s : State) (node v : Nat), s.blk.Calm → s.blk.Serving →
    (v < 8 → ∃ n, (∀ i, bit n i = (bit s.blk.flt.out i
        && !(bit v i && Tab.get (fun _ => 0) s.blk.flt.outAt i != s.blk.tick.wall + 1)))
      ∧ exec (.faultAck node v) s = s.becomes ({ s.blk with flt := { s.blk.flt with out := n } }.answered node K.FAULT_ACK))
    ∧ exec (.syncLostClear node 0) s = s.becomes (s.blk.answered node K.SYNC_LOST_CLEAR)
    ∧ exec (.syncLostClear node 1) s = s.becomes ((if s.blk.setNow 16 then s.blk
        else s.blk.setReg K.SYNC_STATE (setBit (s.blk.reg K.SYNC_STATE) 1 false)).answered node K.SYNC_LOST_CLEAR)
    ∧ (v < 128 ∨ v = 255 → ∃ t, exec (.deadReadClear node v) s = .next t ∧ s.SameMemory t
      ∧ (∀ k, t.blk.tile k = if (v = 255 ∨ k = v) ∧ s.blk.setNow (128 + k) = false then { s.blk.tile k with deadRead := false } else s.blk.tile k)
      ∧ t.blk = { s.blk with tiles := t.blk.tiles }.answered node K.DEAD_READ_CLEAR)
    ∧ (s.blk.flt.today.length ≤ 16 → ∃ t, exec (.ehCountClear node 0) s = .next t ∧ t.pending = s.pending
      ∧ t.mem = s.mem.withRecord K.EH_COUNT 1 0 ∧ t.blk.reg K.EH_COUNT = s.blk.flt.today.length
      ∧ t.blk.reg K.EH_NEXT = s.blk.flt.today.length % 16 + 1
      ∧ (∀ i, i < 16 → t.blk.recAt (K.EH_COUNT + (i + 1)) = (s.blk.flt.today[i]?).getD [])
      ∧ t.blk.reg K.EH_TOTAL = s.blk.reg K.EH_TOTAL ∧ t.blk.trace = s.blk.trace ∧ t.blk.flt = s.blk.flt
      ∧ Only [] [] ((s.blk.commitRecord K.EH_COUNT).answered node K.EH_COUNT) t.blk)
    ∧ (v < 6 ∨ v = 255 → ∃ t, exec (.hogFlagsClear node v) s = .next t ∧ s.SameMemory t
      ∧ (∀ p, p < 6 → fieldAt (t.blk.recAt K.HOG_FLAGS) (2 * p) 2 =
          if v = 255 ∨ p = v then ((List.range 16).map (fun i =>
            if s.blk.setNow (256 + 16 * p + i) && bit (fieldAt (s.blk.record K.HOG_FLAGS 12) (2 * p) 2) i then 2 ^ i else 0)).sum
          else fieldAt (s.blk.record K.HOG_FLAGS 12) (2 * p) 2)
      ∧ Only [] [K.HOG_FLAGS] (s.blk.answered node K.HOG_FLAGS_CLEAR) t.blk)
    ∧ (v < 1024 → ∃ t, exec (.mxLockClear node v) s = .next t ∧ s.SameMemory t
      ∧ (∀ i, bit (t.blk.reg K.MX_LOCK_STATUS) i = (bit (s.blk.reg K.MX_LOCK_STATUS) i && !(bit v i && !s.blk.setNow (512 + i))))
      ∧ Only [K.MX_LOCK_STATUS] [] (s.blk.answered node K.MX_LOCK_CLEAR) t.blk)
    ∧ (∃ t, exec (.traceClear node 1) s = .next t ∧ s.SameMemory t
      ∧ (let n := s.blk.flt.trOld.length + s.blk.flt.trDrop.length
         t.blk.reg K.TRACE_NEXT = 32 * n % 262144 ∧ t.blk.reg K.TRACE_FILL = min (32 * n) 262144)
      ∧ t.blk.reg K.TRACE_LOST = s.blk.reg K.TRACE_LOST - s.blk.flt.trDrop.length
      ∧ (s.blk.flt.trOld = [] → s.blk.flt.trDrop = [] → t.blk.trace = s.blk.trace)
      ∧ (∀ r, s.blk.flt.trOld = [] → s.blk.flt.trDrop = [r] → Tab.get (fun _ => []) t.blk.trace 0 = r)
      ∧ (∀ place old, s.blk.flt.trOld = [(place, old)] → s.blk.flt.trDrop = [] → place ≠ 0 → s.blk.reg K.TRACE_NEXT = 32 * ((place + 1) % 8192) → place < 8192 →
        Tab.get (fun _ => []) t.blk.trace 0 = Tab.get (fun _ => []) s.blk.trace place
        ∧ Tab.get (fun _ => []) t.blk.trace place = old)
      ∧ Only [K.TRACE_NEXT, K.TRACE_FILL] [] (s.blk.answered node K.TRACE_CLEAR) t.blk)
    ∧ exec (.aniseColdClear node 0) s = s.becomes (s.blk.answered node K.ANISE_COLD_CLEAR)
    ∧ exec (.aniseColdClear node 1) s =
      s.becomes ((if s.blk.setNow 700 then s.blk
        else s.blk.setReg K.ID_FLAGS (setBit (s.blk.reg K.ID_FLAGS) 1 false)).answered node K.ANISE_COLD_CLEAR)

/-- A restored Anise slot holds its value where that passes the checks, and is cold otherwise; the two checkpoint halves without a cold
slot clear the cold-scale flag; a Clove checkpoint is stored but for its reserved bytes; `ANISE_INIT` makes one slot, or all, cold with
zero counters, on which the uses of this cycle then act (14_dictionary.md R351; 09_numerics.md R230 to R233; 00_scope.md R6). The commit
of a converting write uses the destination's scale slot once: the largest magnitude enters `HIST` at `HPOS`, `HCOUNT`, `HPOS`,
`LAST_SIGMA`, `SFMT`, `WARM` and the use count follow, and `COMMIT` is set; its Clove counter adds the flushed and the nonzero values, and
a run of uses that flush too much raises the alarm at every multiple of `FLUSH_RUN_LIMIT`: counted, recorded, and entered with class 1
unless it is masked (09_numerics.md R226, R228, R233 to R235, R237). The model's choice: log entries 40, 80, 81 and 95. -/
def Obligations.AniseAndCloveAreRestoredOrCold : Prop :=
  (∀ (s : State) (node : Nat), s.blk.Calm → s.blk.Serving →
      let cold := aniseReset (s.blk.cfg K.ANISE_MARGIN_INIT) (s.blk.reg K.WARM_USES)
      let flag (n : Nat) : Bool := bit n 1
      (∀ data : List Byte, s.blk.lc = .configured → s.blk.ring.seg = none → data.length = 32 → ∃ t, exec (.aniseSlot node data) s = .next t
        ∧ s.SameMemory t
        ∧ (∀ n, t.blk.aniseSlot n = if n = s.blk.reg K.ANISE_SELECT then if aniseOk data then data else cold else s.blk.aniseSlot n)
        ∧ (aniseOk data = true → t.blk.reg K.ID_FLAGS = s.blk.reg K.ID_FLAGS ∧ t.blk.ckpt = s.blk.ckpt)
        ∧ (aniseOk data = false → flag (t.blk.reg K.ID_FLAGS) = true ∧ t.blk.ckpt = 0)
        ∧ Only [K.ID_FLAGS] [] ({ s.blk with
            anise := t.blk.anise, ckpt := t.blk.ckpt, aniseNow := t.blk.aniseNow,
            mx := { s.blk.mx with fills := s.blk.mx.fills.filter (fun f => f.1 != s.blk.reg K.ANISE_SELECT) } }.segReplies node
              0x2400 9 32 true) t.blk)
      ∧ (∀ (data : List Byte) (hi : Bool), s.blk.lc = .configured → s.blk.ring.seg = none → data.length = 65536 →
        let first := if hi then 2048 else 0
        let item (i : Nat) : List Byte := slice data (32 * i) 32
        let good := ∀ i, i < 2048 → aniseOk (item i) = true
        let both := Nat.lor s.blk.ckpt (if hi then 2 else 1)
        ∃ t, exec (.aniseCkpt node hi data) s = .next t ∧ s.SameMemory t
          ∧ (∀ i, i < 2048 → t.blk.aniseSlot (first + i) = if aniseOk (item i) then item i else cold)
          ∧ (∀ n, n < first ∨ first + 2048 ≤ n → t.blk.aniseSlot n = s.blk.aniseSlot n)
          ∧ (good → both = 3 → flag (t.blk.reg K.ID_FLAGS) = false ∧ t.blk.ckpt = 0)
          ∧ (good → both ≠ 3 → t.blk.reg K.ID_FLAGS = s.blk.reg K.ID_FLAGS ∧ t.blk.ckpt = both)
          ∧ (¬good → flag (t.blk.reg K.ID_FLAGS) = true ∧ t.blk.ckpt = 0)
          ∧ Only [K.ID_FLAGS] [] ({ s.blk with
              anise := t.blk.anise, ckpt := t.blk.ckpt, aniseNow := t.blk.aniseNow, mx := { s.blk.mx with fills := t.blk.mx.fills } }.segReplies node
                0x2400 (if hi then 11 else 10) 65536 true) t.blk)
      ∧ (∀ data : List Byte, s.blk.lc = .configured → s.blk.ring.seg = none → data.length = 65536 →
        ∃ t, exec (.cloveCkpt node data) s = .next t ∧ s.SameMemory t
          ∧ (∀ n, t.blk.cloveSlot n = if n < 4096 then slice data (16 * n) 14 ++ [0, 0] else s.blk.cloveSlot n)
          ∧ Only [] [] ({ s.blk with clove := t.blk.clove }.segReplies node 0x2400 12 65536 true) t.blk)
      ∧ (∀ v, v < 4096 ∨ v = 65535 → ∃ t, exec (.aniseInit node v) s = .next t ∧ s.SameMemory t
        ∧ flag (t.blk.reg K.ID_FLAGS) = true
        ∧ (v < 4096 → ∀ x, s.blk.aniseNow = [x] → x.slot = v →
          let r := s.blk.useScales x.uses cold (List.replicate 16 0)
          t.blk.aniseSlot v = r.1 ∧ t.blk.cloveSlot v = r.2.1)
        ∧ (s.blk.aniseNow = [] → (∀ n, n < 4096 → (v = 65535 ∨ n = v → t.blk.aniseSlot n = cold ∧ t.blk.cloveSlot n = List.replicate 16 0)
          ∧ (v ≠ 65535 → n ≠ v → t.blk.aniseSlot n = s.blk.aniseSlot n ∧ t.blk.cloveSlot n = s.blk.cloveSlot n))
        ∧ Only [K.ID_FLAGS] [] ({ s.blk with
            anise := t.blk.anise, clove := t.blk.clove, ckpt := 0,
            mx := { s.blk.mx with fills := t.blk.mx.fills } }.answered node K.ANISE_INIT) t.blk)))
  ∧ (∀ (s : State) (o : Op), s.blk.op? o.id = some o → o.d.opc ∈ [0x22, 0x32, 0x41] → s.blk.commitDue o = true → s.blk.Calm →
      (∀ p ∈ s.blk.ops, p.pendingOvf = none) → o.srcs = [] → o.dests = [(o.dest, (s.blk.tile o.dest).gen)] →
      (s.blk.tile o.dest).writers = 1 → (s.blk.tile o.dest).state = .loading → o.sums.overflow = false → s.blk.aniseNow = [] →
      converts o.d.opc (shFmt o.dstShape) = true →
      let slot := (s.blk.tile o.dest).scaleSlot
      let v := s.blk.aniseSlot slot
      let c := s.blk.cloveSlot slot
      let pos := (byteAt v 17).toNat
      let warm := if bit (byteAt v 20).toNat 1 then fieldAt v 22 2 - 1 else fieldAt v 22 2
      let f := o.sums.flushed
      let n := o.sums.nonzero
      let counting := n ≠ 0 ∧ s.blk.cfg K.FLUSH_FRAC * n ≤ 256 * f
      let run := if n = 0 then fieldAt c 8 2 else if counting then min (fieldAt c 8 2 + 1) 65535 else 0
      let alarm := counting ∧ run ≠ fieldAt c 8 2 ∧ run % s.blk.cfg K.FLUSH_RUN_LIMIT = 0
      let masked := s.blk.rw K.CLOVE_ALARM_MASK = 1 ∨ (byteAt v 20).getLsbD 5 = true
      ∃ t, exec (.tileCommit o.id) s = .next t ∧ s.SameMemory t
        ∧ (let w := t.blk.aniseSlot slot
          (∀ i, i < 16 → byteAt w i = if i = pos % 16 then (match o.sums.amax with
              | none => 0x80 | some l => BitVec.ofNat 8 (ofSigned 8 (clampInt l (-127) 127))) else byteAt v i)
          ∧ (byteAt w 16).toNat = min ((byteAt v 16).toNat + 1) 16 ∧ (byteAt w 17).toNat = (pos + 1) % 16
          ∧ byteAt w 18 = BitVec.ofNat 8 (ofSigned 8 (if shMode o.dstShape = 1 then o.sigma else 0)) ∧ byteAt w 19 = byteAt v 19
          ∧ (byteAt w 20).getLsbD 0 = true ∧ (byteAt w 20).getLsbD 1 = ((byteAt v 20).getLsbD 1 && decide (warm ≠ 0))
          ∧ (byteAt w 20).getLsbD 2 = decide masked ∧ (byteAt w 20).getLsbD 3 = ((byteAt v 20).getLsbD 3 || decide alarm)
          ∧ (byteAt w 20).getLsbD 4 = (byteAt v 20).getLsbD 4 ∧ (byteAt w 20).getLsbD 5 = (byteAt v 20).getLsbD 5
          ∧ (byteAt w 21).toNat = shFmt o.dstShape ∧ fieldAt w 22 2 = warm ∧ fieldAt w 24 4 = min (fieldAt v 24 4 + 1) 0xFFFFFFFF)
        ∧ (let d := t.blk.cloveSlot slot
          fieldAt d 0 4 = min (fieldAt c 0 4 + f) 0xFFFFFFFF ∧ fieldAt d 4 4 = min (fieldAt c 4 4 + n) 0xFFFFFFFF ∧ fieldAt d 8 2 = run
          ∧ fieldAt d 10 2 = (if counting ∧ f = n then min (fieldAt c 10 2 + 1) 65535 else fieldAt c 10 2)
          ∧ fieldAt d 12 2 = (if alarm then min (fieldAt c 12 2 + 1) 65535 else fieldAt c 12 2) ∧ fieldAt d 14 2 = 0)
        ∧ (∀ k, k ≠ slot → t.blk.aniseSlot k = s.blk.aniseSlot k ∧ t.blk.cloveSlot k = s.blk.cloveSlot k)
        ∧ (¬alarm → t.blk.regs = s.blk.regs ∧ t.blk.recs = s.blk.recs)
        ∧ (alarm → t.blk.reg K.CLOVE_ALARMS = min (s.blk.reg K.CLOVE_ALARMS + 1) 0xFFFFFFFF
          ∧ t.blk.recAt K.CLOVE_LAST = leBytes 8 s.blk.stamp.toNat ++ leBytes 2 slot ++ leBytes 2 run ++ [if masked then 1 else 0, 0, 0, 0]
          ∧ (¬masked → t.blk.Entered 0x0702 1 255)
          ∧ (masked → Only [K.CLOVE_ALARMS] [K.CLOVE_LAST] { s.blk with
              ops := t.blk.ops, sems := t.blk.sems, reqs := t.blk.reqs, tiles := t.blk.tiles, seen := t.blk.seen, anise := t.blk.anise, clove := t.blk.clove,
              aniseNow := t.blk.aniseNow, mx := { s.blk.mx with fills := t.blk.mx.fills }, replayNow := t.blk.replayNow,
              replayNext := t.blk.replayNext, replayQ := t.blk.replayQ } t.blk)))

/-- While ticks run a `SAVE` or `RESTORE` command latches its parameters and waits for the boundary; in Configured a save takes its tile
headers and the list of its rows at once, over a service matrix that is free for it, or ends with status 4 where its limit is too small,
and a restore makes every slot of its context dead; the first transfer of the image starts with its command beat (14_dictionary.md R348,
R349; 15_states_power.md R366, R367). The end of a save whose rows are all read gives its image, `SR_BYTES`, `SR_TILES` and status 3, and
its command's result; a memory fault or an abort ends a save with status 5, a restore whose header is wrong ends with status 6 and its
context dead, and the restore of one empty tile configures that tile as its header says (15_states_power.md R364 to R367; 14_dictionary.md
R350). The model's choice: log entries 18, 25, 26 and 82. -/
def Obligations.SaveAndRestoreStartAndEnd : Prop :=
  (∀ (s : State) (node : Nat), s.blk.Calm → s.blk.RingIdle → s.blk.sr.phase = 0 → s.blk.pins.bist = 0 →
      (∀ o ∈ s.blk.ops, o.role ≠ .image) → (s.blk.reg K.SR_CTX = 1 → s.blk.half = false) → s.blk.reg K.SR_BASE + s.blk.reg K.SR_LIMIT ≤ 2 ^ 57 →
      let ctx := s.blk.reg K.SR_CTX
      let anise := s.blk.reg K.SR_WITH_ANISE == 1
      let slots := s.blk.ctxSlots ctx
      let heads := slots.map (fun k => (k, (s.blk.tile k).header (k % 64)))
      let fits := roundUp (saveSize heads (saveRange anise heads).2) 1024 ≤ s.blk.reg K.SR_LIMIT
      let own (sr : SaveEngine) (save : Bool) : Prop := sr.phase = 2 ∧ sr.isSave = save ∧ sr.cmd = true ∧ sr.ctx = ctx
        ∧ sr.base = s.blk.reg K.SR_BASE ∧ sr.limit = s.blk.reg K.SR_LIMIT ∧ sr.anise = anise
      let started (b : Blk) (t : State) (o p : Op) (x : Xfer) (y : OutBeat) : Blk := { b with
        ops := s.blk.ops ++ [o, p], opNo := s.blk.opNo + 2, xfers := [x], tnNo := (s.blk.tnNo + 1) % 65536, outs := s.blk.outs ++ [y],
        sr := t.blk.sr, tiles := t.blk.tiles, seen := t.blk.seen, scrubRow := t.blk.scrubRow, force := t.blk.force }
      let first (save : Bool) (o p : Op) (x : Xfer) (y : OutBeat) : Prop := o.id = s.blk.opNo ∧ o.role = .save ∧ o.opn = true
        ∧ o.d.opc = (if save then 0x60 else 0x61) ∧ o.d.port = (if save then 3 else 5)
        ∧ p.id = s.blk.opNo + 1 ∧ p.role = .image ∧ p.d.endpt = (if save then 9 else 8) ∧ p.d.base = s.blk.reg K.SR_BASE ∧ p.d.stride = 1024
        ∧ x.op = p.id ∧ x.tn = s.blk.tnNo ∧ x.store = save ∧ y.endpt = 9 ∧ y.cmd = some x.tn
        ∧ y.beat.sb = commandSb p save false x.tn p.d.start 32
      (∀ c save k, (c, save, k) ∈ ([(.save node 1, true, K.SAVE), (.restore node 1, false, K.RESTORE)] : List (Instr × Bool × Nat)) →
        (s.blk.lc = .running ∨ s.blk.lc = .holding) → exec c s = s.becomes (({ s.blk.cmdLast (k % 256) 0 0 with sr :=
          { phase := 1, late := s.blk.lastCycle, cmd := true, isSave := save, ctx := ctx, base := s.blk.reg K.SR_BASE,
            limit := s.blk.reg K.SR_LIMIT, anise := anise } }.setReg K.SR_STATUS 1).answered node k))
      ∧ (s.blk.lc = .configured →
        (fits → s.blk.engineFree 7 = true → s.blk.xfers = [] → ∃ (t : State) (o p : Op) (x : Xfer) (y : OutBeat), exec (.save node 1) s = .next t ∧ s.SameMemory t
          ∧ own t.blk.sr true ∧ first true o p x y ∧ t.blk.tiles = s.blk.tiles
          ∧ t.blk.sr.heads = heads ∧ t.blk.sr.stamp = s.blk.stamp ∧ t.blk.sr.op = some o.id
          ∧ t.blk.sr.todo = slots.flatMap (fun i => (validRows (s.blk.tile i).rowValid).map (fun r => (i, r)))
          ∧ t.blk.reg K.SR_STATUS = 2
          ∧ Only [K.SR_STATUS] [K.CMD_LAST] ((started (s.blk.enqueue 3 14 s.blk.opNo) t o p x y).answered node K.SAVE) t.blk)
        ∧ (¬fits → s.blk.engineFree 7 = true → ∃ t, exec (.save node 1) s = .next t ∧ s.SameMemory t ∧ t.blk.sr.phase = 0 ∧ t.blk.reg K.SR_STATUS = 4
          ∧ fieldAt (t.blk.recAt K.CMD_LAST) 8 2 = 0x305
          ∧ Only [K.SR_STATUS] [K.CMD_LAST] ({ s.blk with sr := t.blk.sr }.answered node K.SAVE) t.blk)
        ∧ (s.blk.Untangled → ∃ (t : State) (o p : Op) (x : Xfer) (y : OutBeat), exec (.restore node 1) s = .next t
          ∧ t.pending = s.pending ∧ own t.blk.sr false ∧ first false o p x y ∧ t.blk.reg K.SR_STATUS = 2
          ∧ (∀ k, 64 * ctx ≤ k → k < 64 * ctx + 64 → (t.blk.tile k).inUse = false)
          ∧ (∀ k, ¬(64 * ctx ≤ k ∧ k < 64 * ctx + 64) → t.blk.tile k = s.blk.tile k)
          ∧ t.mem.prog = s.mem.prog ∧ t.mem.dram = s.mem.dram
          ∧ (s.blk.cfg K.SCRUB_ON_REL = 0 → (∀ k, (s.blk.tile k).scrubPend = false) → t.mem = s.mem)
          ∧ Only [K.SR_STATUS, K.ECC_INJECT] [K.CMD_LAST] ((started (s.blk.enqueue 5 14 s.blk.opNo) t o p x y).answered node K.RESTORE)
              t.blk)))
  ∧ (∀ (s : State) (im : List Byte), s.blk.Calm → s.blk.sr.phase = 2 →
      (∀ o ∈ s.blk.ops, (o.d.opc = 0x60 ∨ o.d.opc = 0x61) → o.role = .image ∨ s.blk.sr.op = some o.id) → s.blk.sr.hand = none →
      (∀ w ∈ s.blk.writes, s.blk.sr.op ≠ some w.op) →
      let rest : Blk := Blk.withoutImage (match s.blk.sr.op.bind s.blk.op? with
        | some o => s.blk.finishOp o
        | none => s.blk)
      let saved := if s.blk.sr.image = [] then s.blk.saveImage else s.blk.sr.image
      let fresh := s.blk.OnlyImage ∧ s.blk.sr.isSave = false ∧ s.blk.sr.image = [] ∧ s.blk.sr.pos = 0
      let cmd := if s.blk.sr.isSave then 5 else 6
      let result (t : State) (r : Byte) : Prop := s.blk.sr.cmd = true → byteAt (s.blk.record K.CMD_LAST 16) 8 = BitVec.ofNat 8 cmd →
        byteAt (s.blk.record K.CMD_LAST 16) 9 = 0 → byteAt (t.blk.recAt K.CMD_LAST) 9 = r
      (s.blk.sr.isSave = true → s.blk.sr.todo = [] →
        (s.blk.sr.image ≠ [] ∨ (saveRange s.blk.sr.anise s.blk.sr.heads).2 = 0 ∨ s.blk.engineFree 4 = true) →
        ∃ t, exec (.saveRestoreDone .moved im) s = .next t ∧ s.SameMemory t
        ∧ t.blk.sr.image = saved ∧ t.blk.reg K.SR_BYTES = saved.length ∧ t.blk.reg K.SR_TILES = s.blk.sr.heads.length
        ∧ t.blk.reg K.SR_STATUS = 3 ∧ t.blk.sr.phase = 0 ∧ result t 2
        ∧ Only [K.SR_STATUS, K.SR_BYTES, K.SR_TILES] [K.CMD_LAST] { rest with sr := t.blk.sr } t.blk)
      ∧ (s.blk.sr.isSave = true → ∀ e, e ≠ .moved → ∃ t, exec (.saveRestoreDone e im) s = .next t ∧ s.SameMemory t
        ∧ t.blk.reg K.SR_STATUS = 5 ∧ t.blk.sr.phase = 0 ∧ result t 3
        ∧ Only [K.SR_STATUS] [K.CMD_LAST] { rest with sr := t.blk.sr } t.blk)
      ∧ (fresh → imageOk im = false → ∃ t, exec (.saveRestoreDone .moved im) s = .next t ∧ s.SameMemory t
        ∧ t.blk.reg K.SR_STATUS = 6 ∧ t.blk.sr.phase = 0 ∧ result t 3
        ∧ (∀ k, 64 * s.blk.sr.ctx ≤ k → k < 64 * s.blk.sr.ctx + 64 → (t.blk.tile k).inUse = false)
        ∧ (∀ k, ¬(64 * s.blk.sr.ctx ≤ k ∧ k < 64 * s.blk.sr.ctx + 64) → t.blk.tile k = s.blk.tile k)
        ∧ Only [K.SR_STATUS] [K.CMD_LAST] { rest with sr := t.blk.sr, tiles := t.blk.tiles, seen := t.blk.seen, scrubRow := t.blk.scrubRow }
            t.blk)
      ∧ (fresh → s.blk.sr.prev = none → imageOk im = true → fieldAt im 16 4 ≤ im.length → roundUp (fieldAt im 16 4) 1024 ≤ s.blk.sr.limit → byteAt im 6 = 1 →
        s.blk.sr.anise = false → crc32 (slice im 0 20 ++ [0, 0, 0, 0] ++ slice im 24 (fieldAt im 16 4 - 24)) = fieldAt im 20 4 →
        96 ≤ fieldAt im 16 4 →
        let h := slice im 64 32
        let slot := 64 * s.blk.sr.ctx + (byteAt h 0).toNat
        headerOk none h = true → fieldAt h 8 8 = 0 → (s.blk.tile slot).scrubPend = false →
        ∃ t, exec (.saveRestoreDone .moved im) s = .next t ∧ s.SameMemory t ∧ t.blk.reg K.SR_STATUS = 3 ∧ t.blk.sr.phase = 0 ∧ result t 2
          ∧ t.blk.reg K.SR_BYTES = fieldAt im 16 4 ∧ t.blk.reg K.SR_TILES = 1
          ∧ (let x := t.blk.tile slot
            x.inUse = true ∧ x.shape = fieldAt h 4 4 ∧ x.epoch = (fieldAt h 16 2 + s.blk.raises slot) % 65536 ∧ x.scaleSlot = fieldAt h 18 2 ∧ x.rowValid = 0
            ∧ x.state = restoredState (byteAt h 1).toNat ∧ x.writers = 0 ∧ x.zread = bit (byteAt h 2).toNat 0
            ∧ x.unrecomp = bit (byteAt h 2).toNat 1 ∧ x.abandoned = ((byteAt h 1).toNat == 2))
          ∧ (∀ k, k ≠ slot → t.blk.tile k = s.blk.tile k)
          ∧ Only [K.SR_STATUS, K.SR_BYTES, K.SR_TILES] [K.CMD_LAST] { rest with
              sr := t.blk.sr, tiles := t.blk.tiles, cfgNow := slot :: s.blk.cfgNow } t.blk))

/-- A retired bank is marked and entered with class 2; while ticks run every tile with a row in its group is damaged and the boundary
takes the rest, and without ticks a free spare takes its place in the map at once (04_banks.md R110, R111; 14_dictionary.md R348). `BIST`
starts in Configured with every unit Active; its end reports the failing banks, clears what it tested, and makes every tile dead whose
arrays were tested, with one trace record for a tile whose `STATE` changes (14_dictionary.md R348; 16_faults.md R376, R379, R389). A
checked read counts every word in error once, for its kind and its physical bank; it records the first, in the order rows, quarters, data
words, sideband words; a two-bit error poisons the row, and enters 0x0202 for its bank, the events in ascending bank. A data word is
delivered as stored; a sideband word with a two-bit error reads as zeros (04_banks.md R107, R113). With `AUTO_RETIRE` = 1 a bank has a
failure window: an uncorrectable error counts in it unless it is of the word of the last one counted; `RETIRE_UE_COUNT` of them within 2 ^
`RETIRE_WINDOW` ticks fail the bank, which is then retired as `RETIRE_BANK` retires it (04_banks.md R110; 16_faults.md R375, R376). The
model's choice: log entries 10, 33, 34 and 35. -/
def Obligations.BanksRetireAndAreTested : Prop :=
  (∀ (s : State) (node p l : Nat), s.blk.Calm → s.blk.Serving → s.blk.pins.bist = 0 → s.blk.Untangled → p < 34 →
      (List.range 32).find? (fun i => s.blk.bankMap i == p) = some l → s.blk.retired p = false →
      let hit (k : Nat) : Prop := k < 128 ∧ (s.blk.tile k).inUse = true ∧ s.blk.justConfigured k = false
        ∧ (List.range (shRows (s.blk.tile k).shape)).any (fun r => s.blk.groupOf k r == l / 4) = true
      let marks (t : State) : Prop := s.SameMemory t ∧ t.blk.Entered 0x0203 2 p
        ∧ t.blk.reg K.BANKS_RETIRED = Nat.lor (s.blk.reg K.BANKS_RETIRED) (2 ^ p)
        ∧ (∀ k, hit k → (t.blk.tile k).state = .damaged ∧ (t.blk.tile k).rowValid = (s.blk.tile k).rowValid)
        ∧ (∀ k, ¬hit k → t.blk.tile k = s.blk.tile k) ∧ (s.blk.sr.phase ≠ 2 ∨ s.blk.sr.isSave = false → t.blk.sr = s.blk.sr)
      (s.blk.ticking = true → ∃ t, exec (.retireBank node p) s = .next t ∧ marks t
        ∧ Only [K.BANKS_RETIRED] [K.CMD_LAST] ({ s.blk with
            tiles := t.blk.tiles, seen := t.blk.seen, sr := t.blk.sr, flt := { s.blk.flt with retiring := s.blk.flt.retiring ++ [p] } }.answered node K.RETIRE_BANK) t.blk)
      ∧ (∀ q, s.blk.ticking = false → s.blk.flt.retiring = [] → s.blk.half = false → s.blk.freeSpare = some q →
        ∃ t, exec (.retireBank node p) s = .next t ∧ marks t ∧ t.blk.reg K.SPARES_FREE = s.blk.reg K.SPARES_FREE - 1
          ∧ (∀ i, i < 32 → t.blk.bankMap i = if i = l then q else s.blk.bankMap i)
          ∧ Only [K.BANKS_RETIRED, K.SPARES_FREE] [K.CMD_LAST, K.BANK_MAP]
              ({ s.blk with tiles := t.blk.tiles, seen := t.blk.seen, sr := t.blk.sr }.answered node K.RETIRE_BANK) t.blk))
  ∧ (∀ s : State,
      (∀ node v, s.blk.Calm → s.blk.RingIdle → s.blk.lc = .configured → s.blk.pins.bist = 0 → s.blk.reg K.PWR_BLOCK = 0 →
        s.blk.pwr.portsIdle = 0 → s.blk.pwr.groupsIdle = 0 → 0 < v → v < 32 → exec (.bist node v) s =
        s.becomes (({ s.blk.cmdLast 8 0 0 with pins := { s.blk.pins with bist := v } }.setReg K.BIST_STATUS 1).answered node K.BIST))
      ∧ (s.blk.pins.bist ≠ 0 → ∀ banks : List Nat, s.blk.cfg K.BIST_RETIRE = 0 ∨ banks = [] →
        let v := s.blk.pins.bist
        let arrays := bit v 0 = true ∨ bit v 1 = true
        let failed := banks ≠ [] ∧ arrays ∧ ∃ p ∈ banks, p < 34
        ∃ t, exec (.bistDone banks false false false) s = .next t ∧ t.pending = s.pending
          ∧ (failed → t.blk.reg K.BIST_STATUS = 3) ∧ (¬failed → t.blk.reg K.BIST_STATUS = 2)
          ∧ (∀ p, p < 34 → bit (fieldAt (t.blk.recAt K.BIST_FAILS) 0 8) p = decide (arrays ∧ p ∈ banks))
          ∧ t.mem = { s.mem with
              data := if bit v 0 then [] else s.mem.data, side := if bit v 1 then [] else s.mem.side, marks := t.mem.marks }
          ∧ (∀ a, Tab.get zeroByte t.mem.marks a = if (bit v 0 = true ∧ a < 2097152) ∨ (bit v 1 = true ∧ 2097152 ≤ a) then 0
              else Tab.get zeroByte s.mem.marks a)
          ∧ (∀ k, t.blk.tile k = if arrays ∧ s.blk.tiles.any (fun x => x.1 == k) = true then { gen := nextGen false (s.blk.tile k).gen } else s.blk.tile k)
          ∧ (bit v 3 = true → t.blk.clove = [] ∧ bit (t.blk.reg K.ID_FLAGS) 1 = true
              ∧ ∀ n, n < 4096 → t.blk.aniseSlot n = aniseReset (s.blk.cfg K.ANISE_MARGIN_INIT) (s.blk.reg K.WARM_USES))
          ∧ (¬arrays ∨ bit (s.blk.rw K.TRACE_EN) 3 = false → t.blk.trace = (if bit v 4 then [] else s.blk.trace))
          ∧ (arrays → bit (s.blk.rw K.TRACE_EN) 3 = true → ∀ k x, s.blk.tiles = [(k, x)] → x.state ≠ .empty →
            t.blk.flt.trSeq = (s.blk.flt.trSeq + 1) % 2 ^ 32)
          ∧ (bit v 3 = false → Only [K.BIST_STATUS] [K.BIST_FAILS, K.CMD_LAST] { s.blk with
              pins := { s.blk.pins with bist := 0 }, tiles := t.blk.tiles } t.blk)))
  ∧ (∀ (s : State) (id : Nat) (o : Op), s.blk.op? id = some o → o.opn = false → s.blk.moving = true → o.d.opc = 0x20 → o.taken = false →
      s.blk.fenced o.d.port = false → o.srcShape = (s.blk.seenTile o.d.slot).shape → shapeOk o.srcShape = true → s.blk.Calm →
      s.blk.eccSeen = [] → s.blk.cfg K.AUTO_RETIRE = 0 →
      let row := accessRow o.d o.srcShape o.n
      let qs := accessQuarters o.d o.srcShape o.n
      let rb := shRB o.srcShape
      let bank (q : Nat) : Nat := s.blk.physOf o.d.slot row q
      let e := s.blk.entryOf o.d.slot row
      let errs : List EccErr := (List.range 4).flatMap (fun q =>
        (if q ∈ qs ∧ 256 * q < rb then s.mem.errsOf (64 * o.d.slot + row) q false (bank q) e (List.range (min 32 ((rb - 256 * q) / 8))) else [])
          ++ s.mem.errsOf (64 * o.d.slot + row) q true (bank q) e (List.range 4))
      let added (old k : Nat) : Nat := if k = 0 then old else min (old + k) 0xFFFFFFFF
      s.blk.rowRead o.d.slot row = .stored → s.blk.active o.d.port = true → s.blk.active (8 + s.blk.groupOf o.d.slot row) = true →
      (∀ q, q < 4 → bank q < 34) →
      ∃ (t : State) (x : OutBeat), exec (.scheduledReadAccess id true {} []) s = .next t ∧ s.SameMemory t
        ∧ x.endpt = o.d.endpt ∧ x.op = id ∧ x.due = s.blk.tick.beat + 6
        ∧ (∀ i, i < rb → i / 256 ∈ qs → byteAt x.beat.data i = s.mem.rowByte s.blk o.d.slot row i)
        ∧ (∀ i, i < 76 → byteAt x.beat.sb i =
          if markDouble (Tab.get zeroByte s.mem.marks (markIx true (bank (i / 32)) e (i % 32 / 8))).toNat then 0
          else s.mem.sbByte s.blk o.d.slot row i)
        ∧ (errs.any (fun y => y.double) = true → (byteAt x.beat.sb 82).getLsbD 1 = true)
        ∧ t.blk.reg K.ECC_CE = added (s.blk.reg K.ECC_CE) (errs.filter (fun y => !y.double)).length
        ∧ t.blk.reg K.ECC_UE = added (s.blk.reg K.ECC_UE) (errs.filter (fun y => y.double)).length
        ∧ (∀ p, p < 34 → fieldAt (t.blk.record K.BANK_ECC 272) (8 * p) 4 =
            added (fieldAt (s.blk.record K.BANK_ECC 272) (8 * p) 4) (errs.filter (fun y => y.bank == p && !y.double)).length
          ∧ fieldAt (t.blk.record K.BANK_ECC 272) (8 * p + 4) 4 =
            added (fieldAt (s.blk.record K.BANK_ECC 272) (8 * p + 4) 4) (errs.filter (fun y => y.bank == p && y.double)).length)
        ∧ (∀ f, errs.head? = some f → let l := t.blk.recAt K.ECC_LAST
          fieldAt l 0 8 = s.blk.stamp.toNat ∧ fieldAt l 8 1 = f.bank ∧ fieldAt l 9 2 = f.entry % 65536 ∧ fieldAt l 11 1 = f.word
            ∧ fieldAt l 12 1 = (if f.double then 1 else 0) + (if f.sb then 2 else 0) ∧ fieldAt l 13 1 ≠ 0
            ∧ (f.mark < 4 → fieldAt l 13 1 = f.mark) ∧ fieldAt l 14 2 = 0)
        ∧ (∀ y, y ∈ errs → y.double = true → (∀ z, z ∈ errs → z.double = true → z.bank ≤ y.bank) → t.blk.Entered 0x0202 2 y.bank)
        ∧ t.blk.op? id = some { o with n := o.n + 1, taken := decide (o.total ≤ o.n + 1) }
        ∧ Only [K.ECC_CE, K.ECC_UE] [K.BANK_ECC, K.ECC_LAST] { s.blk with
            ops := t.blk.ops, outs := s.blk.outs ++ [x], fresh := t.blk.fresh, eccSeen := errs } t.blk)
  ∧ (∀ (s : State) (id : Nat) (o : Op) (y : EccErr), s.blk.op? id = some o → o.opn = false → s.blk.moving = true → o.d.opc = 0x20 →
      o.taken = false → s.blk.fenced o.d.port = false → o.srcShape = (s.blk.seenTile o.d.slot).shape → shapeOk o.srcShape = true →
      s.blk.Calm → s.blk.eccSeen = [] → s.blk.cfg K.AUTO_RETIRE ≠ 0 → s.blk.Untangled →
      let row := accessRow o.d o.srcShape o.n
      s.blk.rowRead o.d.slot row = .stored → s.blk.active o.d.port = true → s.blk.active (8 + s.blk.groupOf o.d.slot row) = true →
      (readArrays s.mem s.blk o.d.slot row (accessQuarters o.d o.srcShape o.n) (shRB o.srcShape)).2.2.1.filter (fun z => z.double) = [y] →
      y.bank < 34 →
      let w := Tab.get (fun _ => ({} : Window)) s.blk.flt.windows y.bank
      let at' := markIx y.sb y.bank y.entry y.word
      let d := subMod (2 ^ 40) s.blk.tick.tick w.start
      let first := w.count = 0 ∨ (d < 2 ^ 39 ∧ 2 ^ s.blk.cfg K.RETIRE_WINDOW ≤ d)
      let n := if first then 1 else w.count + 1
      let counted := w.failed = false ∧ ¬(w.count ≠ 0 ∧ w.last = some at')
      let fails := counted ∧ s.blk.cfg K.RETIRE_UE_COUNT ≤ n
      ∃ t, exec (.scheduledReadAccess id true {} []) s = .next t ∧ s.SameMemory t
        ∧ t.blk.reg K.ECC_UE = min (s.blk.reg K.ECC_UE + 1) 0xFFFFFFFF
        ∧ Tab.get (fun _ => ({} : Window)) t.blk.flt.windows y.bank = (if counted then
            { start := if first then s.blk.tick.tick else w.start, count := n, last := some at', failed := decide fails } else w)
        ∧ (∀ u, u ≠ y.bank → Tab.get (fun _ => ({} : Window)) t.blk.flt.windows u = Tab.get (fun _ => ({} : Window)) s.blk.flt.windows u)
        ∧ (¬fails → t.blk.Entered 0x0202 2 y.bank ∧ t.blk.reg K.BANKS_RETIRED = s.blk.reg K.BANKS_RETIRED
          ∧ t.blk.flt.retiring = s.blk.flt.retiring ∧ t.blk.tiles = s.blk.tiles)
        ∧ (∀ l, fails → s.blk.retired y.bank = false → (List.range 32).find? (fun i => s.blk.bankMap i == y.bank) = some l →
          let hit (k : Nat) : Prop := k < 128 ∧ (s.blk.tile k).inUse = true ∧ s.blk.justConfigured k = false
            ∧ (List.range (shRows (s.blk.tile k).shape)).any (fun r => s.blk.groupOf k r == l / 4) = true
          t.blk.Entered 0x0203 2 y.bank ∧ t.blk.reg K.BANKS_RETIRED = Nat.lor (s.blk.reg K.BANKS_RETIRED) (2 ^ y.bank)
            ∧ t.blk.flt.retiring = s.blk.flt.retiring ++ [y.bank]
            ∧ (∀ k, hit k → (t.blk.tile k).state = .damaged ∧ (t.blk.tile k).rowValid = (s.blk.tile k).rowValid)
            ∧ (∀ k, ¬hit k → t.blk.tile k = s.blk.tile k)))

/-- `STOP` leads from Armed to Configured at once, and while ticks run waits for its boundary; `CANCEL_EPOCH` raises the epoch of every
live slot of its range by one; `TILE_CONFIG` configures its slot, and a shape that is not allowed is refused, counted and entered
(14_dictionary.md R348; 15_states_power.md R353, R354; 03_tile_registers.md R71, R80). The model's choice: log entries 8, 10, 62 and 75.
-/
def Obligations.StopCancelAndTileConfig : Prop :=
  ∀ (s : State) (node : Nat), s.blk.Calm → s.blk.Serving →
    (∀ v, (v = 1 ∨ v = 2) → s.blk.pins.stopPend = 0 →
      (s.blk.lc = .armed →
        let c := ({ (s.blk.cmdLast 9 0 0).stopAll with
          lc := .configured, sems := [], pins := { s.blk.pins with stopPend := 0, drainN := 0, drainForced := false } }.setReg K.SYNC_STATE
            (setBit (s.blk.reg K.SYNC_STATE) 2 false)).answered node K.STOP
        exec (.stop node v) s = s.becomes c ∧ s.blk.Stopped c)
      ∧ (s.blk.lc = .running ∨ s.blk.lc = .holding → exec (.stop node v) s = s.becomes ({ s.blk.cmdLast 9 0 0 with
        pins := { s.blk.pins with stopPend := v + if s.blk.lastCycle then 2 else 0 } }.answered node K.STOP)))
    ∧ (∀ first n, s.blk.sems = [] → 1 ≤ n → first + n ≤ 128 → s.blk.lc ≠ .safe →
      ∃ t, exec (.cancelEpoch node (first + 65536 * n)) s = .next t ∧ s.SameMemory t
        ∧ (∀ k, t.blk.tile k = if first ≤ k ∧ k < first + n ∧ (s.blk.tile k).inUse = true
            then { s.blk.tile k with
              epoch := ((s.blk.tile k).epoch + 1) % 65536, maceDisc := min (s.blk.tile k).maceDisc 65535 } else s.blk.tile k)
        ∧ (∀ k, t.blk.seenTile k = s.blk.seenTile k)
        ∧ (∀ k, t.blk.raises k = s.blk.raises k + if first ≤ k ∧ k < first + n then 1 else 0)
        ∧ Only [] [K.CMD_LAST] ({ s.blk with tiles := t.blk.tiles, seen := t.blk.seen, raised := t.blk.raised }.answered node K.CANCEL_EPOCH)
            t.blk)
    ∧ (∀ v : List Byte, v.length = 12 → s.blk.lc = .configured → s.blk.ring.seg = none → s.blk.pins.bist = 0 → s.blk.Untangled →
      let slot := fieldAt v 0 2
      let shape := fieldAt v 4 4
      let x := s.blk.tile slot
      slot < 128 → fieldAt v 8 2 < 4096 → fieldAt v 10 1 < 2 → fieldAt v 11 1 = 0 → (64 ≤ slot → s.blk.half = false) →
      (shapeOk shape = true → pairOk (shFmt shape) (shMode shape) = true → x.scrubPend = false →
        ∃ t, exec (.tileConfig node v) s = .next t ∧ s.SameMemory t
          ∧ (∀ k, t.blk.tile k = if k = slot then { x with
              state := .empty, inUse := true, rowValid := 0, shape := shape, scaleSlot := fieldAt v 8 2,
              epoch := (fieldAt v 2 2 + s.blk.raises slot) % 65536,
              zread := bit (fieldAt v 10 1) 0, startRow := 0, writers := 0, abandoned := false, unrecomp := false,
              scrubPend := false, lastStamp := if x.state = .empty then x.lastStamp else s.blk.stamp, gen := nextGen false x.gen } else s.blk.tile k)
          ∧ Only [] [K.CMD_LAST] ({ s.blk with tiles := t.blk.tiles, cfgNow := slot :: s.blk.cfgNow }.segReplies node 0x2F00 10 12 true)
              t.blk)
      ∧ (∀ cause, (shapeOk shape = false ∧ cause = 4)
          ∨ (shapeOk shape = true ∧ pairOk (shFmt shape) (shMode shape) = false ∧ cause = 9) →
        ∃ t, exec (.tileConfig node v) s = .next t ∧ s.SameMemory t ∧ t.blk.Entered 0x0201 1 slot
          ∧ t.blk.reg K.SHAPE_FAULTS = min (s.blk.reg K.SHAPE_FAULTS + 1) 0xFFFFFFFF
          ∧ fieldAt (t.blk.recAt K.SHAPE_FAULT_LAST) 8 4 = shape ∧ fieldAt (t.blk.recAt K.SHAPE_FAULT_LAST) 19 1 = cause
          ∧ t.blk.ring.answers = (s.blk.segReplies node 0x2F00 10 12 false).ring.answers
            ++ [mkFrame (BitVec.ofNat 8 node) 0x84 0 0x2F00 10 (leBytes 4 0x00030004)]
          ∧ Only [K.SHAPE_FAULTS, K.RING_ABORTS_SENT] [K.SHAPE_FAULT_LAST, K.RING_ABORT_LAST, K.CMD_LAST] { s.blk with
              ring := { s.blk.ring with answers := t.blk.ring.answers } } t.blk))
end

