-- ==== Sys2Proof/Laws/Cycle.lean ====
section
/-! SUPPORT. What the shared operations of a row's last cycles, of an abort and of the save engine's accesses can do. -/

namespace Sys2Proof.Machine

/-- A row that lands differs from the row taken in its sideband only. -/
theorem Blk.landEpoch_eq (b : Blk) (w : RowWrite) : b.landEpoch w = { w with sb := (b.landEpoch w).sb } := by
  unfold Blk.landEpoch
  split <;> rfl

/-- The clock stands while the work of the next cycle is done. -/
theorem Blk.inNext_clock (b : Blk) (f : Blk → Blk) : (b.inNext f).tick.wall = b.tick.wall ∧ (b.inNext f).tick.lcyc = b.tick.lcyc := ⟨rfl, rfl⟩

@[simp] theorem laterTrigger_timeout (n : Nat) : laterTrigger 0 n = n := rfl

theorem laterTrigger_first (m n : Nat) (h : m ≠ 0) : laterTrigger m n = m := by
  unfold laterTrigger
  rw [if_neg h]

/-- A waiting access of the engine changes what the matrix holds and nothing else. -/
theorem Blk.engineWait_frame (b : Blk) (t : Nat) (write : Bool) : b.engineWait t write = { b with mx := (b.engineWait t write).mx } := by
  unfold Blk.engineWait
  split <;> rfl

/-- Damage during a save changes tile headers that are still to be written, and nothing else. -/
theorem Blk.saveDamaged_frame (b : Blk) (s : Nat) : b.saveDamaged s = { b with sr := { b.sr with heads := (b.saveDamaged s).sr.heads } } := by
  unfold Blk.saveDamaged
  split <;> rfl

end Sys2Proof.Machine
end

