-- ==== Sys2Proof/Laws/Mem.lean ====
section
/-! SUPPORT. Laws of tables and byte memories: what a read gives after a write, and that every write keeps the canonical form. -/

namespace Sys2Proof.Machine

variable {α : Type}

/-! ### What a read finds -/

theorem Tab.get_nil (d : Nat → α) (k : Nat) : Tab.get d [] k = d k := rfl

theorem Tab.get_cons (d : Nat → α) (c : Nat × α) (m : Tab α) (k : Nat) :
    Tab.get d (c :: m) k = if c.1 = k then c.2 else Tab.get d m k := by
  by_cases h : c.1 = k <;> simp [Tab.get, h]

/-- Entries at other keys in front of a table do not matter. -/
theorem Tab.get_append_of_ne (d : Nat → α) (a b : Tab α) (k : Nat) (h : ∀ c ∈ a, c.1 ≠ k) :
    Tab.get d (a ++ b) k = Tab.get d b k := by
  induction a with
  | nil => rfl
  | cons c a ih =>
    rw [List.cons_append, Tab.get_cons, if_neg (h c (by simp)), ih (fun x hx => h x (by simp [hx]))]

/-- A table without the key, behind another, does not matter. -/
theorem Tab.get_append_left (d : Nat → α) (a b : Tab α) (k : Nat) (h : ∀ c ∈ b, c.1 ≠ k) :
    Tab.get d (a ++ b) k = Tab.get d a k := by
  induction a with
  | nil => simpa [Tab.get_nil] using Tab.get_append_of_ne d b [] k h
  | cons c a ih => rw [List.cons_append, Tab.get_cons, Tab.get_cons, ih]

theorem Tab.get_filter (d : Nat → α) (p : Nat × α → Bool) (m : Tab α) (k : Nat) (h : ∀ c : Nat × α, c.1 = k → p c = true) :
    Tab.get d (m.filter p) k = Tab.get d m k := by
  induction m with
  | nil => rfl
  | cons c m ih =>
    by_cases hp : p c = true
    · rw [List.filter_cons_of_pos hp, Tab.get_cons, Tab.get_cons, ih]
    · have hk : c.1 ≠ k := fun e => hp (h c e)
      rw [List.filter_cons_of_neg hp, Tab.get_cons, if_neg hk, ih]

theorem Tab.run_key (d : Nat → α) [DecidableEq α] (vs : List α) (k : Nat) :
    ∀ c ∈ Tab.run d k vs, k ≤ c.1 ∧ c.1 < k + vs.length := by
  induction vs generalizing k with
  | nil => simp [Tab.run]
  | cons v vs ih =>
    intro c hc
    unfold Tab.run at hc
    split at hc
    · have := ih (k + 1) c hc; simp; omega
    · rcases List.mem_cons.mp hc with rfl | hc
      · simp
      · have := ih (k + 1) c hc; simp; omega

theorem Tab.get_run (d : Nat → α) [DecidableEq α] (vs : List α) (k i : Nat) :
    Tab.get d (Tab.run d k vs) (k + i) = (vs[i]?).getD (d (k + i)) := by
  induction vs generalizing k i with
  | nil => simp [Tab.run, Tab.get_nil]
  | cons v vs ih =>
    cases i with
    | zero =>
      have hno : ∀ c ∈ Tab.run d (k + 1) vs, c.1 ≠ k := fun c hc => by have := Tab.run_key d vs (k + 1) c hc; omega
      unfold Tab.run
      split
      · next hv =>
        have := Tab.get_append_of_ne d (Tab.run d (k + 1) vs) [] k hno
        simp only [List.append_nil] at this
        simp [this, Tab.get_nil, hv]
      · simp [Tab.get_cons]
    | succ i =>
      have e : k + (i + 1) = k + 1 + i := by omega
      unfold Tab.run
      split
      · rw [e, ih]; simp
      · rw [Tab.get_cons, if_neg (by simp), e, ih]; simp

/-- What a read gives after a write: the stored value at the keys written, else what it gave before. -/
theorem Tab.get_write [DecidableEq α] (d : Nat → α) (m : Tab α) (k : Nat) (vs : List α) (j : Nat) :
    Tab.get d (Tab.write d m k vs) j =
      if k ≤ j ∧ j < k + vs.length then (vs[j - k]?).getD (d j) else Tab.get d m j := by
  have hrun : ∀ c ∈ Tab.run d k vs, k ≤ c.1 ∧ c.1 < k + vs.length := Tab.run_key d vs k
  unfold Tab.write
  by_cases hj : j < k
  · rw [if_neg (by omega), List.append_assoc, Tab.get_append_left]
    · exact Tab.get_filter d _ m j (fun c hc => by simp; omega)
    · intro c hc
      rcases List.mem_append.mp hc with hc | hc
      · have := hrun c hc; omega
      · have := (List.mem_filter.mp hc).2; simp at this; omega
  · have hlow : ∀ c ∈ m.filter (fun c => decide (c.1 < k)), c.1 ≠ j := fun c hc => by
      have := (List.mem_filter.mp hc).2; simp at this; omega
    by_cases hin : j < k + vs.length
    · rw [if_pos ⟨by omega, hin⟩, Tab.get_append_left, Tab.get_append_of_ne d _ _ j hlow]
      · obtain ⟨i, rfl⟩ : ∃ i, j = k + i := ⟨j - k, by omega⟩
        rw [Tab.get_run]; simp
      · intro c hc; have := (List.mem_filter.mp hc).2; simp at this; omega
    · rw [if_neg (by omega), Tab.get_append_of_ne]
      · exact Tab.get_filter d _ m j (fun c hc => by simp; omega)
      · intro c hc
        rcases List.mem_append.mp hc with hc | hc
        · exact hlow c hc
        · have := hrun c hc; omega

theorem Tab.get_set [DecidableEq α] (d : Nat → α) (m : Tab α) (k : Nat) (v : α) (j : Nat) :
    Tab.get d (Tab.set d m k v) j = if j = k then v else Tab.get d m j := by
  unfold Tab.set
  rw [Tab.get_write]
  by_cases h : j = k
  · subst h; simp
  · rw [if_neg (by simp; omega), if_neg h]

@[simp] theorem Tab.get_set_self [DecidableEq α] (d : Nat → α) (m : Tab α) (k : Nat) (v : α) :
    Tab.get d (Tab.set d m k v) k = v := by rw [Tab.get_set, if_pos rfl]

theorem Tab.get_set_ne [DecidableEq α] (d : Nat → α) (m : Tab α) {k j : Nat} (v : α) (h : j ≠ k) :
    Tab.get d (Tab.set d m k v) j = Tab.get d m j := by rw [Tab.get_set, if_neg h]

/-! ### The canonical form -/

theorem Tab.wf_nil (d : Nat → α) : Tab.wf d [] := ⟨List.Pairwise.nil, by simp⟩

theorem Tab.wf_filter (d : Nat → α) (p : Nat × α → Bool) {m : Tab α} (h : Tab.wf d m) : Tab.wf d (m.filter p) :=
  ⟨h.1.filter p, fun c hc => h.2 c ((List.mem_filter.mp hc).1)⟩

theorem Tab.run_pairwise [DecidableEq α] (d : Nat → α) (vs : List α) (k : Nat) :
    (Tab.run d k vs).Pairwise (fun a b => a.1 < b.1) := by
  induction vs generalizing k with
  | nil => exact List.Pairwise.nil
  | cons v vs ih =>
    unfold Tab.run
    split
    · exact ih (k + 1)
    · exact List.pairwise_cons.mpr ⟨fun c hc => by have := Tab.run_key d vs (k + 1) c hc; simp; omega, ih (k + 1)⟩

theorem Tab.run_ne [DecidableEq α] (d : Nat → α) (vs : List α) (k : Nat) : ∀ c ∈ Tab.run d k vs, c.2 ≠ d c.1 := by
  induction vs generalizing k with
  | nil => simp [Tab.run]
  | cons v vs ih =>
    intro c hc
    unfold Tab.run at hc
    split at hc
    · exact ih (k + 1) c hc
    · next hv => rcases List.mem_cons.mp hc with rfl | hc
                 · exact hv
                 · exact ih (k + 1) c hc

/-- Every write keeps the canonical form. -/
theorem Tab.wf_write [DecidableEq α] (d : Nat → α) {m : Tab α} (k : Nat) (vs : List α) (h : Tab.wf d m) :
    Tab.wf d (Tab.write d m k vs) := by
  have hrun : ∀ c ∈ Tab.run d k vs, k ≤ c.1 ∧ c.1 < k + vs.length := Tab.run_key d vs k
  unfold Tab.write
  refine ⟨?_, ?_⟩
  · refine List.pairwise_append.mpr ⟨List.pairwise_append.mpr ⟨h.1.filter _, Tab.run_pairwise d vs k, ?_⟩, h.1.filter _, ?_⟩
    · intro a ha b hb
      have := (List.mem_filter.mp ha).2
      have := hrun b hb
      simp at *; omega
    · intro a ha b hb
      have h2 := (List.mem_filter.mp hb).2
      rcases List.mem_append.mp ha with ha | ha
      · have := (List.mem_filter.mp ha).2; simp at *; omega
      · have := hrun a ha; simp at *; omega
  · intro c hc
    rcases List.mem_append.mp hc with hc | hc
    · rcases List.mem_append.mp hc with hc | hc
      · exact h.2 c ((List.mem_filter.mp hc).1)
      · exact Tab.run_ne d vs k c hc
    · exact h.2 c ((List.mem_filter.mp hc).1)

theorem Tab.wf_set [DecidableEq α] (d : Nat → α) {m : Tab α} (k : Nat) (v : α) (h : Tab.wf d m) : Tab.wf d (Tab.set d m k v) :=
  Tab.wf_write d k [v] h

/-! ### Byte memories -/

theorem Mem.wf_write {m : List Host.Cell} (a : Nat) (bs : List Byte) (h : Tab.wf zeroByte m) : Tab.wf zeroByte (Mem.write m a bs) :=
  Tab.wf_write zeroByte a bs h

theorem Mem.wf_strobe {m : List Host.Cell} (a : Nat) (bs : List (Option Byte)) (h : Tab.wf zeroByte m) :
    Tab.wf zeroByte (Mem.strobe m a bs) :=
  Tab.wf_write zeroByte a _ h

/-- One byte after a write: the stored byte, else what it was. -/
theorem Mem.get_write (m : List Host.Cell) (a : Nat) (bs : List Byte) (x : Nat) :
    Tab.get zeroByte (Mem.write m a bs) x =
      if a ≤ x ∧ x < a + bs.length then (bs[x - a]?).getD 0 else Tab.get zeroByte m x :=
  Tab.get_write zeroByte m a bs x

/-- A read after a write of the same bytes gives them back. -/
theorem Mem.read_write_self (m : List Host.Cell) (a : Nat) (bs : List Byte) : Mem.read (Mem.write m a bs) a bs.length = bs := by
  apply List.ext_getElem
  · simp [Mem.read]
  · intro i h1 h2
    simp only [Mem.read, List.getElem_map, List.getElem_range, Mem.get_write]
    rw [if_pos ⟨by omega, by omega⟩]
    simp [h2]

/-- A write leaves every other place alone. -/
theorem Mem.read_write_disjoint (m : List Host.Cell) (a : Nat) (bs : List Byte) (x n : Nat) (h : x + n ≤ a ∨ a + bs.length ≤ x) :
    Mem.read (Mem.write m a bs) x n = Mem.read m x n := by
  apply List.map_congr_left
  intro i hi
  have := List.mem_range.mp hi
  rw [Mem.get_write, if_neg (by omega)]

end Sys2Proof.Machine
end

