-- ==== Sys2Proof/Laws/State.lean ====
section
/-! SUPPORT. What each update of the block leaves alone: one lemma for each field that an update does not change, so that no proof
unfolds a record update. -/

namespace Sys2Proof.Machine

variable (b : Blk) (s : State) (f : Store → Blk → Blk)

/-! ### The state -/

theorem State.withBlk_mem (t : State) (x : Blk) : ({ t with blk := x } : State).mem = t.mem := rfl
theorem State.withBlk_pending (t : State) (x : Blk) : ({ t with blk := x } : State).pending = t.pending := rfl
@[simp] theorem State.upd_mem : (s.upd f).mem = s.mem := rfl
@[simp] theorem State.upd_pending : (s.upd f).pending = s.pending := rfl
@[simp] theorem State.upd_blk : (s.upd f).blk = f s.mem s.blk := rfl
@[simp] theorem State.ordered_mem (t : State) : (s.ordered t).mem = t.mem := State.withBlk_mem t _
@[simp] theorem State.ordered_pending (t : State) : (s.ordered t).pending = t.pending := State.withBlk_pending t _
@[simp] theorem State.ordered_blk (t : State) : (s.ordered t).blk = orderBlk s.blk t.blk := rfl
@[simp] theorem State.cyc_mem : (s.cyc f).mem = s.mem := State.ordered_mem s _
@[simp] theorem State.cyc_pending : (s.cyc f).pending = s.pending := State.ordered_pending s _
@[simp] theorem State.cyc_blk : (s.cyc f).blk = orderBlk s.blk (f s.mem s.blk) := rfl

/-! ### `setReg` -/

@[simp] theorem Blk.setReg_lc (k v : Nat) : (b.setReg k v).lc = b.lc := rfl
@[simp] theorem Blk.setReg_pins (k v : Nat) : (b.setReg k v).pins = b.pins := rfl
@[simp] theorem Blk.setReg_recs (k v : Nat) : (b.setReg k v).recs = b.recs := rfl
@[simp] theorem Blk.setReg_force (k v : Nat) : (b.setReg k v).force = b.force := rfl
@[simp] theorem Blk.setReg_anise (k v : Nat) : (b.setReg k v).anise = b.anise := rfl
@[simp] theorem Blk.setReg_clove (k v : Nat) : (b.setReg k v).clove = b.clove := rfl
@[simp] theorem Blk.setReg_ckpt (k v : Nat) : (b.setReg k v).ckpt = b.ckpt := rfl
@[simp] theorem Blk.setReg_trace (k v : Nat) : (b.setReg k v).trace = b.trace := rfl
@[simp] theorem Blk.setReg_tiles (k v : Nat) : (b.setReg k v).tiles = b.tiles := rfl
@[simp] theorem Blk.setReg_seen (k v : Nat) : (b.setReg k v).seen = b.seen := rfl
@[simp] theorem Blk.setReg_eccSeen (k v : Nat) : (b.setReg k v).eccSeen = b.eccSeen := rfl
@[simp] theorem Blk.setReg_cfgNow (k v : Nat) : (b.setReg k v).cfgNow = b.cfgNow := rfl
@[simp] theorem Blk.setReg_raised (k v : Nat) : (b.setReg k v).raised = b.raised := rfl
@[simp] theorem Blk.setReg_aniseNow (k v : Nat) : (b.setReg k v).aniseNow = b.aniseNow := rfl
@[simp] theorem Blk.setReg_tick (k v : Nat) : (b.setReg k v).tick = b.tick := rfl
@[simp] theorem Blk.setReg_sched (k v : Nat) : (b.setReg k v).sched = b.sched := rfl
@[simp] theorem Blk.setReg_ops (k v : Nat) : (b.setReg k v).ops = b.ops := rfl
@[simp] theorem Blk.setReg_writes (k v : Nat) : (b.setReg k v).writes = b.writes := rfl
@[simp] theorem Blk.setReg_outs (k v : Nat) : (b.setReg k v).outs = b.outs := rfl
@[simp] theorem Blk.setReg_buses (k v : Nat) : (b.setReg k v).buses = b.buses := rfl
@[simp] theorem Blk.setReg_reqs (k v : Nat) : (b.setReg k v).reqs = b.reqs := rfl
@[simp] theorem Blk.setReg_xfers (k v : Nat) : (b.setReg k v).xfers = b.xfers := rfl
@[simp] theorem Blk.setReg_gather (k v : Nat) : (b.setReg k v).gather = b.gather := rfl
@[simp] theorem Blk.setReg_gStaged (k v : Nat) : (b.setReg k v).gStaged = b.gStaged := rfl
@[simp] theorem Blk.setReg_gNext (k v : Nat) : (b.setReg k v).gNext = b.gNext := rfl
@[simp] theorem Blk.setReg_sems (k v : Nat) : (b.setReg k v).sems = b.sems := rfl
@[simp] theorem Blk.setReg_replayQ (k v : Nat) : (b.setReg k v).replayQ = b.replayQ := rfl
@[simp] theorem Blk.setReg_replayNow (k v : Nat) : (b.setReg k v).replayNow = b.replayNow := rfl
@[simp] theorem Blk.setReg_replayNext (k v : Nat) : (b.setReg k v).replayNext = b.replayNext := rfl
@[simp] theorem Blk.setReg_heldCfg (k v : Nat) : (b.setReg k v).heldCfg = b.heldCfg := rfl
@[simp] theorem Blk.setReg_scrubRow (k v : Nat) : (b.setReg k v).scrubRow = b.scrubRow := rfl
@[simp] theorem Blk.setReg_imgLo (k v : Nat) : (b.setReg k v).imgLo = b.imgLo := rfl
@[simp] theorem Blk.setReg_imgHi (k v : Nat) : (b.setReg k v).imgHi = b.imgHi := rfl
@[simp] theorem Blk.setReg_fixed (k v : Nat) : (b.setReg k v).fixed = b.fixed := rfl
@[simp] theorem Blk.setReg_roundAt (k v : Nat) : (b.setReg k v).roundAt = b.roundAt := rfl
@[simp] theorem Blk.setReg_refused (k v : Nat) : (b.setReg k v).refused = b.refused := rfl
@[simp] theorem Blk.setReg_withdrawn (k v : Nat) : (b.setReg k v).withdrawn = b.withdrawn := rfl
@[simp] theorem Blk.setReg_adderNext (k v : Nat) : (b.setReg k v).adderNext = b.adderNext := rfl
@[simp] theorem Blk.setReg_adderEnd (k v : Nat) : (b.setReg k v).adderEnd = b.adderEnd := rfl
@[simp] theorem Blk.setReg_droveAt (k v : Nat) : (b.setReg k v).droveAt = b.droveAt := rfl
@[simp] theorem Blk.setReg_rwWait (k v : Nat) : (b.setReg k v).rwWait = b.rwWait := rfl
@[simp] theorem Blk.setReg_epOff (k v : Nat) : (b.setReg k v).epOff = b.epOff := rfl
@[simp] theorem Blk.setReg_mx (k v : Nat) : (b.setReg k v).mx = b.mx := rfl
@[simp] theorem Blk.setReg_wrapper (k v : Nat) : (b.setReg k v).wrapper = b.wrapper := rfl
@[simp] theorem Blk.setReg_ring (k v : Nat) : (b.setReg k v).ring = b.ring := rfl
@[simp] theorem Blk.setReg_pwr (k v : Nat) : (b.setReg k v).pwr = b.pwr := rfl
@[simp] theorem Blk.setReg_sr (k v : Nat) : (b.setReg k v).sr = b.sr := rfl
@[simp] theorem Blk.setReg_flt (k v : Nat) : (b.setReg k v).flt = b.flt := rfl
@[simp] theorem Blk.setReg_opNo (k v : Nat) : (b.setReg k v).opNo = b.opNo := rfl
@[simp] theorem Blk.setReg_wNo (k v : Nat) : (b.setReg k v).wNo = b.wNo := rfl
@[simp] theorem Blk.setReg_tnNo (k v : Nat) : (b.setReg k v).tnNo = b.tnNo := rfl
@[simp] theorem Blk.setReg_fresh (k v : Nat) : (b.setReg k v).fresh = b.fresh := rfl

/-! ### `setRec` -/

@[simp] theorem Blk.setRec_lc (k : Nat) (v : List Byte) : (b.setRec k v).lc = b.lc := rfl
@[simp] theorem Blk.setRec_pins (k : Nat) (v : List Byte) : (b.setRec k v).pins = b.pins := rfl
@[simp] theorem Blk.setRec_regs (k : Nat) (v : List Byte) : (b.setRec k v).regs = b.regs := rfl
@[simp] theorem Blk.setRec_force (k : Nat) (v : List Byte) : (b.setRec k v).force = b.force := rfl
@[simp] theorem Blk.setRec_anise (k : Nat) (v : List Byte) : (b.setRec k v).anise = b.anise := rfl
@[simp] theorem Blk.setRec_clove (k : Nat) (v : List Byte) : (b.setRec k v).clove = b.clove := rfl
@[simp] theorem Blk.setRec_ckpt (k : Nat) (v : List Byte) : (b.setRec k v).ckpt = b.ckpt := rfl
@[simp] theorem Blk.setRec_trace (k : Nat) (v : List Byte) : (b.setRec k v).trace = b.trace := rfl
@[simp] theorem Blk.setRec_tiles (k : Nat) (v : List Byte) : (b.setRec k v).tiles = b.tiles := rfl
@[simp] theorem Blk.setRec_seen (k : Nat) (v : List Byte) : (b.setRec k v).seen = b.seen := rfl
@[simp] theorem Blk.setRec_eccSeen (k : Nat) (v : List Byte) : (b.setRec k v).eccSeen = b.eccSeen := rfl
@[simp] theorem Blk.setRec_cfgNow (k : Nat) (v : List Byte) : (b.setRec k v).cfgNow = b.cfgNow := rfl
@[simp] theorem Blk.setRec_raised (k : Nat) (v : List Byte) : (b.setRec k v).raised = b.raised := rfl
@[simp] theorem Blk.setRec_aniseNow (k : Nat) (v : List Byte) : (b.setRec k v).aniseNow = b.aniseNow := rfl
@[simp] theorem Blk.setRec_tick (k : Nat) (v : List Byte) : (b.setRec k v).tick = b.tick := rfl
@[simp] theorem Blk.setRec_sched (k : Nat) (v : List Byte) : (b.setRec k v).sched = b.sched := rfl
@[simp] theorem Blk.setRec_ops (k : Nat) (v : List Byte) : (b.setRec k v).ops = b.ops := rfl
@[simp] theorem Blk.setRec_writes (k : Nat) (v : List Byte) : (b.setRec k v).writes = b.writes := rfl
@[simp] theorem Blk.setRec_outs (k : Nat) (v : List Byte) : (b.setRec k v).outs = b.outs := rfl
@[simp] theorem Blk.setRec_buses (k : Nat) (v : List Byte) : (b.setRec k v).buses = b.buses := rfl
@[simp] theorem Blk.setRec_reqs (k : Nat) (v : List Byte) : (b.setRec k v).reqs = b.reqs := rfl
@[simp] theorem Blk.setRec_xfers (k : Nat) (v : List Byte) : (b.setRec k v).xfers = b.xfers := rfl
@[simp] theorem Blk.setRec_gather (k : Nat) (v : List Byte) : (b.setRec k v).gather = b.gather := rfl
@[simp] theorem Blk.setRec_gStaged (k : Nat) (v : List Byte) : (b.setRec k v).gStaged = b.gStaged := rfl
@[simp] theorem Blk.setRec_gNext (k : Nat) (v : List Byte) : (b.setRec k v).gNext = b.gNext := rfl
@[simp] theorem Blk.setRec_sems (k : Nat) (v : List Byte) : (b.setRec k v).sems = b.sems := rfl
@[simp] theorem Blk.setRec_replayQ (k : Nat) (v : List Byte) : (b.setRec k v).replayQ = b.replayQ := rfl
@[simp] theorem Blk.setRec_replayNow (k : Nat) (v : List Byte) : (b.setRec k v).replayNow = b.replayNow := rfl
@[simp] theorem Blk.setRec_replayNext (k : Nat) (v : List Byte) : (b.setRec k v).replayNext = b.replayNext := rfl
@[simp] theorem Blk.setRec_heldCfg (k : Nat) (v : List Byte) : (b.setRec k v).heldCfg = b.heldCfg := rfl
@[simp] theorem Blk.setRec_scrubRow (k : Nat) (v : List Byte) : (b.setRec k v).scrubRow = b.scrubRow := rfl
@[simp] theorem Blk.setRec_imgLo (k : Nat) (v : List Byte) : (b.setRec k v).imgLo = b.imgLo := rfl
@[simp] theorem Blk.setRec_imgHi (k : Nat) (v : List Byte) : (b.setRec k v).imgHi = b.imgHi := rfl
@[simp] theorem Blk.setRec_fixed (k : Nat) (v : List Byte) : (b.setRec k v).fixed = b.fixed := rfl
@[simp] theorem Blk.setRec_roundAt (k : Nat) (v : List Byte) : (b.setRec k v).roundAt = b.roundAt := rfl
@[simp] theorem Blk.setRec_refused (k : Nat) (v : List Byte) : (b.setRec k v).refused = b.refused := rfl
@[simp] theorem Blk.setRec_withdrawn (k : Nat) (v : List Byte) : (b.setRec k v).withdrawn = b.withdrawn := rfl
@[simp] theorem Blk.setRec_adderNext (k : Nat) (v : List Byte) : (b.setRec k v).adderNext = b.adderNext := rfl
@[simp] theorem Blk.setRec_adderEnd (k : Nat) (v : List Byte) : (b.setRec k v).adderEnd = b.adderEnd := rfl
@[simp] theorem Blk.setRec_droveAt (k : Nat) (v : List Byte) : (b.setRec k v).droveAt = b.droveAt := rfl
@[simp] theorem Blk.setRec_rwWait (k : Nat) (v : List Byte) : (b.setRec k v).rwWait = b.rwWait := rfl
@[simp] theorem Blk.setRec_epOff (k : Nat) (v : List Byte) : (b.setRec k v).epOff = b.epOff := rfl
@[simp] theorem Blk.setRec_mx (k : Nat) (v : List Byte) : (b.setRec k v).mx = b.mx := rfl
@[simp] theorem Blk.setRec_wrapper (k : Nat) (v : List Byte) : (b.setRec k v).wrapper = b.wrapper := rfl
@[simp] theorem Blk.setRec_ring (k : Nat) (v : List Byte) : (b.setRec k v).ring = b.ring := rfl
@[simp] theorem Blk.setRec_pwr (k : Nat) (v : List Byte) : (b.setRec k v).pwr = b.pwr := rfl
@[simp] theorem Blk.setRec_sr (k : Nat) (v : List Byte) : (b.setRec k v).sr = b.sr := rfl
@[simp] theorem Blk.setRec_flt (k : Nat) (v : List Byte) : (b.setRec k v).flt = b.flt := rfl
@[simp] theorem Blk.setRec_opNo (k : Nat) (v : List Byte) : (b.setRec k v).opNo = b.opNo := rfl
@[simp] theorem Blk.setRec_wNo (k : Nat) (v : List Byte) : (b.setRec k v).wNo = b.wNo := rfl
@[simp] theorem Blk.setRec_tnNo (k : Nat) (v : List Byte) : (b.setRec k v).tnNo = b.tnNo := rfl
@[simp] theorem Blk.setRec_fresh (k : Nat) (v : List Byte) : (b.setRec k v).fresh = b.fresh := rfl

/-! ### `count` -/

@[simp] theorem Blk.count_lc (k n w : Nat) : (b.count k n w).lc = b.lc := rfl
@[simp] theorem Blk.count_pins (k n w : Nat) : (b.count k n w).pins = b.pins := rfl
@[simp] theorem Blk.count_recs (k n w : Nat) : (b.count k n w).recs = b.recs := rfl
@[simp] theorem Blk.count_force (k n w : Nat) : (b.count k n w).force = b.force := rfl
@[simp] theorem Blk.count_anise (k n w : Nat) : (b.count k n w).anise = b.anise := rfl
@[simp] theorem Blk.count_clove (k n w : Nat) : (b.count k n w).clove = b.clove := rfl
@[simp] theorem Blk.count_ckpt (k n w : Nat) : (b.count k n w).ckpt = b.ckpt := rfl
@[simp] theorem Blk.count_trace (k n w : Nat) : (b.count k n w).trace = b.trace := rfl
@[simp] theorem Blk.count_tiles (k n w : Nat) : (b.count k n w).tiles = b.tiles := rfl
@[simp] theorem Blk.count_seen (k n w : Nat) : (b.count k n w).seen = b.seen := rfl
@[simp] theorem Blk.count_eccSeen (k n w : Nat) : (b.count k n w).eccSeen = b.eccSeen := rfl
@[simp] theorem Blk.count_cfgNow (k n w : Nat) : (b.count k n w).cfgNow = b.cfgNow := rfl
@[simp] theorem Blk.count_raised (k n w : Nat) : (b.count k n w).raised = b.raised := rfl
@[simp] theorem Blk.count_aniseNow (k n w : Nat) : (b.count k n w).aniseNow = b.aniseNow := rfl
@[simp] theorem Blk.count_tick (k n w : Nat) : (b.count k n w).tick = b.tick := rfl
@[simp] theorem Blk.count_sched (k n w : Nat) : (b.count k n w).sched = b.sched := rfl
@[simp] theorem Blk.count_ops (k n w : Nat) : (b.count k n w).ops = b.ops := rfl
@[simp] theorem Blk.count_writes (k n w : Nat) : (b.count k n w).writes = b.writes := rfl
@[simp] theorem Blk.count_outs (k n w : Nat) : (b.count k n w).outs = b.outs := rfl
@[simp] theorem Blk.count_buses (k n w : Nat) : (b.count k n w).buses = b.buses := rfl
@[simp] theorem Blk.count_reqs (k n w : Nat) : (b.count k n w).reqs = b.reqs := rfl
@[simp] theorem Blk.count_xfers (k n w : Nat) : (b.count k n w).xfers = b.xfers := rfl
@[simp] theorem Blk.count_gather (k n w : Nat) : (b.count k n w).gather = b.gather := rfl
@[simp] theorem Blk.count_gStaged (k n w : Nat) : (b.count k n w).gStaged = b.gStaged := rfl
@[simp] theorem Blk.count_gNext (k n w : Nat) : (b.count k n w).gNext = b.gNext := rfl
@[simp] theorem Blk.count_sems (k n w : Nat) : (b.count k n w).sems = b.sems := rfl
@[simp] theorem Blk.count_replayQ (k n w : Nat) : (b.count k n w).replayQ = b.replayQ := rfl
@[simp] theorem Blk.count_replayNow (k n w : Nat) : (b.count k n w).replayNow = b.replayNow := rfl
@[simp] theorem Blk.count_replayNext (k n w : Nat) : (b.count k n w).replayNext = b.replayNext := rfl
@[simp] theorem Blk.count_heldCfg (k n w : Nat) : (b.count k n w).heldCfg = b.heldCfg := rfl
@[simp] theorem Blk.count_scrubRow (k n w : Nat) : (b.count k n w).scrubRow = b.scrubRow := rfl
@[simp] theorem Blk.count_imgLo (k n w : Nat) : (b.count k n w).imgLo = b.imgLo := rfl
@[simp] theorem Blk.count_imgHi (k n w : Nat) : (b.count k n w).imgHi = b.imgHi := rfl
@[simp] theorem Blk.count_fixed (k n w : Nat) : (b.count k n w).fixed = b.fixed := rfl
@[simp] theorem Blk.count_roundAt (k n w : Nat) : (b.count k n w).roundAt = b.roundAt := rfl
@[simp] theorem Blk.count_refused (k n w : Nat) : (b.count k n w).refused = b.refused := rfl
@[simp] theorem Blk.count_withdrawn (k n w : Nat) : (b.count k n w).withdrawn = b.withdrawn := rfl
@[simp] theorem Blk.count_adderNext (k n w : Nat) : (b.count k n w).adderNext = b.adderNext := rfl
@[simp] theorem Blk.count_adderEnd (k n w : Nat) : (b.count k n w).adderEnd = b.adderEnd := rfl
@[simp] theorem Blk.count_droveAt (k n w : Nat) : (b.count k n w).droveAt = b.droveAt := rfl
@[simp] theorem Blk.count_rwWait (k n w : Nat) : (b.count k n w).rwWait = b.rwWait := rfl
@[simp] theorem Blk.count_epOff (k n w : Nat) : (b.count k n w).epOff = b.epOff := rfl
@[simp] theorem Blk.count_mx (k n w : Nat) : (b.count k n w).mx = b.mx := rfl
@[simp] theorem Blk.count_wrapper (k n w : Nat) : (b.count k n w).wrapper = b.wrapper := rfl
@[simp] theorem Blk.count_ring (k n w : Nat) : (b.count k n w).ring = b.ring := rfl
@[simp] theorem Blk.count_pwr (k n w : Nat) : (b.count k n w).pwr = b.pwr := rfl
@[simp] theorem Blk.count_sr (k n w : Nat) : (b.count k n w).sr = b.sr := rfl
@[simp] theorem Blk.count_flt (k n w : Nat) : (b.count k n w).flt = b.flt := rfl
@[simp] theorem Blk.count_opNo (k n w : Nat) : (b.count k n w).opNo = b.opNo := rfl
@[simp] theorem Blk.count_wNo (k n w : Nat) : (b.count k n w).wNo = b.wNo := rfl
@[simp] theorem Blk.count_tnNo (k n w : Nat) : (b.count k n w).tnNo = b.tnNo := rfl
@[simp] theorem Blk.count_fresh (k n w : Nat) : (b.count k n w).fresh = b.fresh := rfl

/-! ### `countIn` -/

@[simp] theorem Blk.countIn_lc (k n a : Nat) : (b.countIn k n a).lc = b.lc := rfl
@[simp] theorem Blk.countIn_pins (k n a : Nat) : (b.countIn k n a).pins = b.pins := rfl
@[simp] theorem Blk.countIn_regs (k n a : Nat) : (b.countIn k n a).regs = b.regs := rfl
@[simp] theorem Blk.countIn_force (k n a : Nat) : (b.countIn k n a).force = b.force := rfl
@[simp] theorem Blk.countIn_anise (k n a : Nat) : (b.countIn k n a).anise = b.anise := rfl
@[simp] theorem Blk.countIn_clove (k n a : Nat) : (b.countIn k n a).clove = b.clove := rfl
@[simp] theorem Blk.countIn_ckpt (k n a : Nat) : (b.countIn k n a).ckpt = b.ckpt := rfl
@[simp] theorem Blk.countIn_trace (k n a : Nat) : (b.countIn k n a).trace = b.trace := rfl
@[simp] theorem Blk.countIn_tiles (k n a : Nat) : (b.countIn k n a).tiles = b.tiles := rfl
@[simp] theorem Blk.countIn_seen (k n a : Nat) : (b.countIn k n a).seen = b.seen := rfl
@[simp] theorem Blk.countIn_eccSeen (k n a : Nat) : (b.countIn k n a).eccSeen = b.eccSeen := rfl
@[simp] theorem Blk.countIn_cfgNow (k n a : Nat) : (b.countIn k n a).cfgNow = b.cfgNow := rfl
@[simp] theorem Blk.countIn_raised (k n a : Nat) : (b.countIn k n a).raised = b.raised := rfl
@[simp] theorem Blk.countIn_aniseNow (k n a : Nat) : (b.countIn k n a).aniseNow = b.aniseNow := rfl
@[simp] theorem Blk.countIn_tick (k n a : Nat) : (b.countIn k n a).tick = b.tick := rfl
@[simp] theorem Blk.countIn_sched (k n a : Nat) : (b.countIn k n a).sched = b.sched := rfl
@[simp] theorem Blk.countIn_ops (k n a : Nat) : (b.countIn k n a).ops = b.ops := rfl
@[simp] theorem Blk.countIn_writes (k n a : Nat) : (b.countIn k n a).writes = b.writes := rfl
@[simp] theorem Blk.countIn_outs (k n a : Nat) : (b.countIn k n a).outs = b.outs := rfl
@[simp] theorem Blk.countIn_buses (k n a : Nat) : (b.countIn k n a).buses = b.buses := rfl
@[simp] theorem Blk.countIn_reqs (k n a : Nat) : (b.countIn k n a).reqs = b.reqs := rfl
@[simp] theorem Blk.countIn_xfers (k n a : Nat) : (b.countIn k n a).xfers = b.xfers := rfl
@[simp] theorem Blk.countIn_gather (k n a : Nat) : (b.countIn k n a).gather = b.gather := rfl
@[simp] theorem Blk.countIn_gStaged (k n a : Nat) : (b.countIn k n a).gStaged = b.gStaged := rfl
@[simp] theorem Blk.countIn_gNext (k n a : Nat) : (b.countIn k n a).gNext = b.gNext := rfl
@[simp] theorem Blk.countIn_sems (k n a : Nat) : (b.countIn k n a).sems = b.sems := rfl
@[simp] theorem Blk.countIn_replayQ (k n a : Nat) : (b.countIn k n a).replayQ = b.replayQ := rfl
@[simp] theorem Blk.countIn_replayNow (k n a : Nat) : (b.countIn k n a).replayNow = b.replayNow := rfl
@[simp] theorem Blk.countIn_replayNext (k n a : Nat) : (b.countIn k n a).replayNext = b.replayNext := rfl
@[simp] theorem Blk.countIn_heldCfg (k n a : Nat) : (b.countIn k n a).heldCfg = b.heldCfg := rfl
@[simp] theorem Blk.countIn_scrubRow (k n a : Nat) : (b.countIn k n a).scrubRow = b.scrubRow := rfl
@[simp] theorem Blk.countIn_imgLo (k n a : Nat) : (b.countIn k n a).imgLo = b.imgLo := rfl
@[simp] theorem Blk.countIn_imgHi (k n a : Nat) : (b.countIn k n a).imgHi = b.imgHi := rfl
@[simp] theorem Blk.countIn_fixed (k n a : Nat) : (b.countIn k n a).fixed = b.fixed := rfl
@[simp] theorem Blk.countIn_roundAt (k n a : Nat) : (b.countIn k n a).roundAt = b.roundAt := rfl
@[simp] theorem Blk.countIn_refused (k n a : Nat) : (b.countIn k n a).refused = b.refused := rfl
@[simp] theorem Blk.countIn_withdrawn (k n a : Nat) : (b.countIn k n a).withdrawn = b.withdrawn := rfl
@[simp] theorem Blk.countIn_adderNext (k n a : Nat) : (b.countIn k n a).adderNext = b.adderNext := rfl
@[simp] theorem Blk.countIn_adderEnd (k n a : Nat) : (b.countIn k n a).adderEnd = b.adderEnd := rfl
@[simp] theorem Blk.countIn_droveAt (k n a : Nat) : (b.countIn k n a).droveAt = b.droveAt := rfl
@[simp] theorem Blk.countIn_rwWait (k n a : Nat) : (b.countIn k n a).rwWait = b.rwWait := rfl
@[simp] theorem Blk.countIn_epOff (k n a : Nat) : (b.countIn k n a).epOff = b.epOff := rfl
@[simp] theorem Blk.countIn_mx (k n a : Nat) : (b.countIn k n a).mx = b.mx := rfl
@[simp] theorem Blk.countIn_wrapper (k n a : Nat) : (b.countIn k n a).wrapper = b.wrapper := rfl
@[simp] theorem Blk.countIn_ring (k n a : Nat) : (b.countIn k n a).ring = b.ring := rfl
@[simp] theorem Blk.countIn_pwr (k n a : Nat) : (b.countIn k n a).pwr = b.pwr := rfl
@[simp] theorem Blk.countIn_sr (k n a : Nat) : (b.countIn k n a).sr = b.sr := rfl
@[simp] theorem Blk.countIn_flt (k n a : Nat) : (b.countIn k n a).flt = b.flt := rfl
@[simp] theorem Blk.countIn_opNo (k n a : Nat) : (b.countIn k n a).opNo = b.opNo := rfl
@[simp] theorem Blk.countIn_wNo (k n a : Nat) : (b.countIn k n a).wNo = b.wNo := rfl
@[simp] theorem Blk.countIn_tnNo (k n a : Nat) : (b.countIn k n a).tnNo = b.tnNo := rfl
@[simp] theorem Blk.countIn_fresh (k n a : Nat) : (b.countIn k n a).fresh = b.fresh := rfl

/-! ### `takeFree` -/

@[simp] theorem Blk.takeFree_lc : (b.takeFree).lc = b.lc := rfl
@[simp] theorem Blk.takeFree_pins : (b.takeFree).pins = b.pins := rfl
@[simp] theorem Blk.takeFree_regs : (b.takeFree).regs = b.regs := rfl
@[simp] theorem Blk.takeFree_recs : (b.takeFree).recs = b.recs := rfl
@[simp] theorem Blk.takeFree_force : (b.takeFree).force = b.force := rfl
@[simp] theorem Blk.takeFree_anise : (b.takeFree).anise = b.anise := rfl
@[simp] theorem Blk.takeFree_clove : (b.takeFree).clove = b.clove := rfl
@[simp] theorem Blk.takeFree_ckpt : (b.takeFree).ckpt = b.ckpt := rfl
@[simp] theorem Blk.takeFree_trace : (b.takeFree).trace = b.trace := rfl
@[simp] theorem Blk.takeFree_tiles : (b.takeFree).tiles = b.tiles := rfl
@[simp] theorem Blk.takeFree_seen : (b.takeFree).seen = b.seen := rfl
@[simp] theorem Blk.takeFree_eccSeen : (b.takeFree).eccSeen = b.eccSeen := rfl
@[simp] theorem Blk.takeFree_cfgNow : (b.takeFree).cfgNow = b.cfgNow := rfl
@[simp] theorem Blk.takeFree_raised : (b.takeFree).raised = b.raised := rfl
@[simp] theorem Blk.takeFree_aniseNow : (b.takeFree).aniseNow = b.aniseNow := rfl
@[simp] theorem Blk.takeFree_tick : (b.takeFree).tick = b.tick := rfl
@[simp] theorem Blk.takeFree_sched : (b.takeFree).sched = b.sched := rfl
@[simp] theorem Blk.takeFree_ops : (b.takeFree).ops = b.ops := rfl
@[simp] theorem Blk.takeFree_writes : (b.takeFree).writes = b.writes := rfl
@[simp] theorem Blk.takeFree_outs : (b.takeFree).outs = b.outs := rfl
@[simp] theorem Blk.takeFree_buses : (b.takeFree).buses = b.buses := rfl
@[simp] theorem Blk.takeFree_reqs : (b.takeFree).reqs = b.reqs := rfl
@[simp] theorem Blk.takeFree_xfers : (b.takeFree).xfers = b.xfers := rfl
@[simp] theorem Blk.takeFree_gather : (b.takeFree).gather = b.gather := rfl
@[simp] theorem Blk.takeFree_gStaged : (b.takeFree).gStaged = b.gStaged := rfl
@[simp] theorem Blk.takeFree_gNext : (b.takeFree).gNext = b.gNext := rfl
@[simp] theorem Blk.takeFree_sems : (b.takeFree).sems = b.sems := rfl
@[simp] theorem Blk.takeFree_replayQ : (b.takeFree).replayQ = b.replayQ := rfl
@[simp] theorem Blk.takeFree_replayNow : (b.takeFree).replayNow = b.replayNow := rfl
@[simp] theorem Blk.takeFree_replayNext : (b.takeFree).replayNext = b.replayNext := rfl
@[simp] theorem Blk.takeFree_heldCfg : (b.takeFree).heldCfg = b.heldCfg := rfl
@[simp] theorem Blk.takeFree_scrubRow : (b.takeFree).scrubRow = b.scrubRow := rfl
@[simp] theorem Blk.takeFree_imgLo : (b.takeFree).imgLo = b.imgLo := rfl
@[simp] theorem Blk.takeFree_imgHi : (b.takeFree).imgHi = b.imgHi := rfl
@[simp] theorem Blk.takeFree_fixed : (b.takeFree).fixed = b.fixed := rfl
@[simp] theorem Blk.takeFree_roundAt : (b.takeFree).roundAt = b.roundAt := rfl
@[simp] theorem Blk.takeFree_refused : (b.takeFree).refused = b.refused := rfl
@[simp] theorem Blk.takeFree_withdrawn : (b.takeFree).withdrawn = b.withdrawn := rfl
@[simp] theorem Blk.takeFree_adderNext : (b.takeFree).adderNext = b.adderNext := rfl
@[simp] theorem Blk.takeFree_adderEnd : (b.takeFree).adderEnd = b.adderEnd := rfl
@[simp] theorem Blk.takeFree_droveAt : (b.takeFree).droveAt = b.droveAt := rfl
@[simp] theorem Blk.takeFree_rwWait : (b.takeFree).rwWait = b.rwWait := rfl
@[simp] theorem Blk.takeFree_epOff : (b.takeFree).epOff = b.epOff := rfl
@[simp] theorem Blk.takeFree_mx : (b.takeFree).mx = b.mx := rfl
@[simp] theorem Blk.takeFree_wrapper : (b.takeFree).wrapper = b.wrapper := rfl
@[simp] theorem Blk.takeFree_ring : (b.takeFree).ring = b.ring := rfl
@[simp] theorem Blk.takeFree_pwr : (b.takeFree).pwr = b.pwr := rfl
@[simp] theorem Blk.takeFree_sr : (b.takeFree).sr = b.sr := rfl
@[simp] theorem Blk.takeFree_flt : (b.takeFree).flt = b.flt := rfl
@[simp] theorem Blk.takeFree_opNo : (b.takeFree).opNo = b.opNo := rfl
@[simp] theorem Blk.takeFree_wNo : (b.takeFree).wNo = b.wNo := rfl
@[simp] theorem Blk.takeFree_tnNo : (b.takeFree).tnNo = b.tnNo := rfl

/-! ### `setRequester` -/

@[simp] theorem Blk.setRequester_lc (p i : Nat) (r : Requester) : (b.setRequester p i r).lc = b.lc := rfl
@[simp] theorem Blk.setRequester_pins (p i : Nat) (r : Requester) : (b.setRequester p i r).pins = b.pins := rfl
@[simp] theorem Blk.setRequester_regs (p i : Nat) (r : Requester) : (b.setRequester p i r).regs = b.regs := rfl
@[simp] theorem Blk.setRequester_recs (p i : Nat) (r : Requester) : (b.setRequester p i r).recs = b.recs := rfl
@[simp] theorem Blk.setRequester_force (p i : Nat) (r : Requester) : (b.setRequester p i r).force = b.force := rfl
@[simp] theorem Blk.setRequester_anise (p i : Nat) (r : Requester) : (b.setRequester p i r).anise = b.anise := rfl
@[simp] theorem Blk.setRequester_clove (p i : Nat) (r : Requester) : (b.setRequester p i r).clove = b.clove := rfl
@[simp] theorem Blk.setRequester_ckpt (p i : Nat) (r : Requester) : (b.setRequester p i r).ckpt = b.ckpt := rfl
@[simp] theorem Blk.setRequester_trace (p i : Nat) (r : Requester) : (b.setRequester p i r).trace = b.trace := rfl
@[simp] theorem Blk.setRequester_tiles (p i : Nat) (r : Requester) : (b.setRequester p i r).tiles = b.tiles := rfl
@[simp] theorem Blk.setRequester_seen (p i : Nat) (r : Requester) : (b.setRequester p i r).seen = b.seen := rfl
@[simp] theorem Blk.setRequester_eccSeen (p i : Nat) (r : Requester) : (b.setRequester p i r).eccSeen = b.eccSeen := rfl
@[simp] theorem Blk.setRequester_cfgNow (p i : Nat) (r : Requester) : (b.setRequester p i r).cfgNow = b.cfgNow := rfl
@[simp] theorem Blk.setRequester_raised (p i : Nat) (r : Requester) : (b.setRequester p i r).raised = b.raised := rfl
@[simp] theorem Blk.setRequester_aniseNow (p i : Nat) (r : Requester) : (b.setRequester p i r).aniseNow = b.aniseNow := rfl
@[simp] theorem Blk.setRequester_tick (p i : Nat) (r : Requester) : (b.setRequester p i r).tick = b.tick := rfl
@[simp] theorem Blk.setRequester_sched (p i : Nat) (r : Requester) : (b.setRequester p i r).sched = b.sched := rfl
@[simp] theorem Blk.setRequester_ops (p i : Nat) (r : Requester) : (b.setRequester p i r).ops = b.ops := rfl
@[simp] theorem Blk.setRequester_writes (p i : Nat) (r : Requester) : (b.setRequester p i r).writes = b.writes := rfl
@[simp] theorem Blk.setRequester_outs (p i : Nat) (r : Requester) : (b.setRequester p i r).outs = b.outs := rfl
@[simp] theorem Blk.setRequester_buses (p i : Nat) (r : Requester) : (b.setRequester p i r).buses = b.buses := rfl
@[simp] theorem Blk.setRequester_xfers (p i : Nat) (r : Requester) : (b.setRequester p i r).xfers = b.xfers := rfl
@[simp] theorem Blk.setRequester_gather (p i : Nat) (r : Requester) : (b.setRequester p i r).gather = b.gather := rfl
@[simp] theorem Blk.setRequester_gStaged (p i : Nat) (r : Requester) : (b.setRequester p i r).gStaged = b.gStaged := rfl
@[simp] theorem Blk.setRequester_gNext (p i : Nat) (r : Requester) : (b.setRequester p i r).gNext = b.gNext := rfl
@[simp] theorem Blk.setRequester_sems (p i : Nat) (r : Requester) : (b.setRequester p i r).sems = b.sems := rfl
@[simp] theorem Blk.setRequester_replayQ (p i : Nat) (r : Requester) : (b.setRequester p i r).replayQ = b.replayQ := rfl
@[simp] theorem Blk.setRequester_replayNow (p i : Nat) (r : Requester) : (b.setRequester p i r).replayNow = b.replayNow := rfl
@[simp] theorem Blk.setRequester_replayNext (p i : Nat) (r : Requester) : (b.setRequester p i r).replayNext = b.replayNext := rfl
@[simp] theorem Blk.setRequester_heldCfg (p i : Nat) (r : Requester) : (b.setRequester p i r).heldCfg = b.heldCfg := rfl
@[simp] theorem Blk.setRequester_scrubRow (p i : Nat) (r : Requester) : (b.setRequester p i r).scrubRow = b.scrubRow := rfl
@[simp] theorem Blk.setRequester_imgLo (p i : Nat) (r : Requester) : (b.setRequester p i r).imgLo = b.imgLo := rfl
@[simp] theorem Blk.setRequester_imgHi (p i : Nat) (r : Requester) : (b.setRequester p i r).imgHi = b.imgHi := rfl
@[simp] theorem Blk.setRequester_fixed (p i : Nat) (r : Requester) : (b.setRequester p i r).fixed = b.fixed := rfl
@[simp] theorem Blk.setRequester_roundAt (p i : Nat) (r : Requester) : (b.setRequester p i r).roundAt = b.roundAt := rfl
@[simp] theorem Blk.setRequester_refused (p i : Nat) (r : Requester) : (b.setRequester p i r).refused = b.refused := rfl
@[simp] theorem Blk.setRequester_withdrawn (p i : Nat) (r : Requester) : (b.setRequester p i r).withdrawn = b.withdrawn := rfl
@[simp] theorem Blk.setRequester_adderNext (p i : Nat) (r : Requester) : (b.setRequester p i r).adderNext = b.adderNext := rfl
@[simp] theorem Blk.setRequester_adderEnd (p i : Nat) (r : Requester) : (b.setRequester p i r).adderEnd = b.adderEnd := rfl
@[simp] theorem Blk.setRequester_droveAt (p i : Nat) (r : Requester) : (b.setRequester p i r).droveAt = b.droveAt := rfl
@[simp] theorem Blk.setRequester_rwWait (p i : Nat) (r : Requester) : (b.setRequester p i r).rwWait = b.rwWait := rfl
@[simp] theorem Blk.setRequester_epOff (p i : Nat) (r : Requester) : (b.setRequester p i r).epOff = b.epOff := rfl
@[simp] theorem Blk.setRequester_mx (p i : Nat) (r : Requester) : (b.setRequester p i r).mx = b.mx := rfl
@[simp] theorem Blk.setRequester_wrapper (p i : Nat) (r : Requester) : (b.setRequester p i r).wrapper = b.wrapper := rfl
@[simp] theorem Blk.setRequester_ring (p i : Nat) (r : Requester) : (b.setRequester p i r).ring = b.ring := rfl
@[simp] theorem Blk.setRequester_pwr (p i : Nat) (r : Requester) : (b.setRequester p i r).pwr = b.pwr := rfl
@[simp] theorem Blk.setRequester_sr (p i : Nat) (r : Requester) : (b.setRequester p i r).sr = b.sr := rfl
@[simp] theorem Blk.setRequester_flt (p i : Nat) (r : Requester) : (b.setRequester p i r).flt = b.flt := rfl
@[simp] theorem Blk.setRequester_opNo (p i : Nat) (r : Requester) : (b.setRequester p i r).opNo = b.opNo := rfl
@[simp] theorem Blk.setRequester_wNo (p i : Nat) (r : Requester) : (b.setRequester p i r).wNo = b.wNo := rfl
@[simp] theorem Blk.setRequester_tnNo (p i : Nat) (r : Requester) : (b.setRequester p i r).tnNo = b.tnNo := rfl
@[simp] theorem Blk.setRequester_fresh (p i : Nat) (r : Requester) : (b.setRequester p i r).fresh = b.fresh := rfl

/-! ### `setOp` -/

@[simp] theorem Blk.setOp_lc (o : Op) : (b.setOp o).lc = b.lc := rfl
@[simp] theorem Blk.setOp_pins (o : Op) : (b.setOp o).pins = b.pins := rfl
@[simp] theorem Blk.setOp_regs (o : Op) : (b.setOp o).regs = b.regs := rfl
@[simp] theorem Blk.setOp_recs (o : Op) : (b.setOp o).recs = b.recs := rfl
@[simp] theorem Blk.setOp_force (o : Op) : (b.setOp o).force = b.force := rfl
@[simp] theorem Blk.setOp_anise (o : Op) : (b.setOp o).anise = b.anise := rfl
@[simp] theorem Blk.setOp_clove (o : Op) : (b.setOp o).clove = b.clove := rfl
@[simp] theorem Blk.setOp_ckpt (o : Op) : (b.setOp o).ckpt = b.ckpt := rfl
@[simp] theorem Blk.setOp_trace (o : Op) : (b.setOp o).trace = b.trace := rfl
@[simp] theorem Blk.setOp_tiles (o : Op) : (b.setOp o).tiles = b.tiles := rfl
@[simp] theorem Blk.setOp_seen (o : Op) : (b.setOp o).seen = b.seen := rfl
@[simp] theorem Blk.setOp_eccSeen (o : Op) : (b.setOp o).eccSeen = b.eccSeen := rfl
@[simp] theorem Blk.setOp_cfgNow (o : Op) : (b.setOp o).cfgNow = b.cfgNow := rfl
@[simp] theorem Blk.setOp_raised (o : Op) : (b.setOp o).raised = b.raised := rfl
@[simp] theorem Blk.setOp_aniseNow (o : Op) : (b.setOp o).aniseNow = b.aniseNow := rfl
@[simp] theorem Blk.setOp_tick (o : Op) : (b.setOp o).tick = b.tick := rfl
@[simp] theorem Blk.setOp_sched (o : Op) : (b.setOp o).sched = b.sched := rfl
@[simp] theorem Blk.setOp_writes (o : Op) : (b.setOp o).writes = b.writes := rfl
@[simp] theorem Blk.setOp_outs (o : Op) : (b.setOp o).outs = b.outs := rfl
@[simp] theorem Blk.setOp_buses (o : Op) : (b.setOp o).buses = b.buses := rfl
@[simp] theorem Blk.setOp_reqs (o : Op) : (b.setOp o).reqs = b.reqs := rfl
@[simp] theorem Blk.setOp_xfers (o : Op) : (b.setOp o).xfers = b.xfers := rfl
@[simp] theorem Blk.setOp_gather (o : Op) : (b.setOp o).gather = b.gather := rfl
@[simp] theorem Blk.setOp_gStaged (o : Op) : (b.setOp o).gStaged = b.gStaged := rfl
@[simp] theorem Blk.setOp_gNext (o : Op) : (b.setOp o).gNext = b.gNext := rfl
@[simp] theorem Blk.setOp_sems (o : Op) : (b.setOp o).sems = b.sems := rfl
@[simp] theorem Blk.setOp_replayQ (o : Op) : (b.setOp o).replayQ = b.replayQ := rfl
@[simp] theorem Blk.setOp_replayNow (o : Op) : (b.setOp o).replayNow = b.replayNow := rfl
@[simp] theorem Blk.setOp_replayNext (o : Op) : (b.setOp o).replayNext = b.replayNext := rfl
@[simp] theorem Blk.setOp_heldCfg (o : Op) : (b.setOp o).heldCfg = b.heldCfg := rfl
@[simp] theorem Blk.setOp_scrubRow (o : Op) : (b.setOp o).scrubRow = b.scrubRow := rfl
@[simp] theorem Blk.setOp_imgLo (o : Op) : (b.setOp o).imgLo = b.imgLo := rfl
@[simp] theorem Blk.setOp_imgHi (o : Op) : (b.setOp o).imgHi = b.imgHi := rfl
@[simp] theorem Blk.setOp_fixed (o : Op) : (b.setOp o).fixed = b.fixed := rfl
@[simp] theorem Blk.setOp_roundAt (o : Op) : (b.setOp o).roundAt = b.roundAt := rfl
@[simp] theorem Blk.setOp_refused (o : Op) : (b.setOp o).refused = b.refused := rfl
@[simp] theorem Blk.setOp_withdrawn (o : Op) : (b.setOp o).withdrawn = b.withdrawn := rfl
@[simp] theorem Blk.setOp_adderNext (o : Op) : (b.setOp o).adderNext = b.adderNext := rfl
@[simp] theorem Blk.setOp_adderEnd (o : Op) : (b.setOp o).adderEnd = b.adderEnd := rfl
@[simp] theorem Blk.setOp_droveAt (o : Op) : (b.setOp o).droveAt = b.droveAt := rfl
@[simp] theorem Blk.setOp_rwWait (o : Op) : (b.setOp o).rwWait = b.rwWait := rfl
@[simp] theorem Blk.setOp_epOff (o : Op) : (b.setOp o).epOff = b.epOff := rfl
@[simp] theorem Blk.setOp_mx (o : Op) : (b.setOp o).mx = b.mx := rfl
@[simp] theorem Blk.setOp_wrapper (o : Op) : (b.setOp o).wrapper = b.wrapper := rfl
@[simp] theorem Blk.setOp_ring (o : Op) : (b.setOp o).ring = b.ring := rfl
@[simp] theorem Blk.setOp_pwr (o : Op) : (b.setOp o).pwr = b.pwr := rfl
@[simp] theorem Blk.setOp_sr (o : Op) : (b.setOp o).sr = b.sr := rfl
@[simp] theorem Blk.setOp_flt (o : Op) : (b.setOp o).flt = b.flt := rfl
@[simp] theorem Blk.setOp_opNo (o : Op) : (b.setOp o).opNo = b.opNo := rfl
@[simp] theorem Blk.setOp_wNo (o : Op) : (b.setOp o).wNo = b.wNo := rfl
@[simp] theorem Blk.setOp_tnNo (o : Op) : (b.setOp o).tnNo = b.tnNo := rfl
@[simp] theorem Blk.setOp_fresh (o : Op) : (b.setOp o).fresh = b.fresh := rfl

/-! ### `setXfer` -/

@[simp] theorem Blk.setXfer_lc (x : Xfer) : (b.setXfer x).lc = b.lc := rfl
@[simp] theorem Blk.setXfer_pins (x : Xfer) : (b.setXfer x).pins = b.pins := rfl
@[simp] theorem Blk.setXfer_regs (x : Xfer) : (b.setXfer x).regs = b.regs := rfl
@[simp] theorem Blk.setXfer_recs (x : Xfer) : (b.setXfer x).recs = b.recs := rfl
@[simp] theorem Blk.setXfer_force (x : Xfer) : (b.setXfer x).force = b.force := rfl
@[simp] theorem Blk.setXfer_anise (x : Xfer) : (b.setXfer x).anise = b.anise := rfl
@[simp] theorem Blk.setXfer_clove (x : Xfer) : (b.setXfer x).clove = b.clove := rfl
@[simp] theorem Blk.setXfer_ckpt (x : Xfer) : (b.setXfer x).ckpt = b.ckpt := rfl
@[simp] theorem Blk.setXfer_trace (x : Xfer) : (b.setXfer x).trace = b.trace := rfl
@[simp] theorem Blk.setXfer_tiles (x : Xfer) : (b.setXfer x).tiles = b.tiles := rfl
@[simp] theorem Blk.setXfer_seen (x : Xfer) : (b.setXfer x).seen = b.seen := rfl
@[simp] theorem Blk.setXfer_eccSeen (x : Xfer) : (b.setXfer x).eccSeen = b.eccSeen := rfl
@[simp] theorem Blk.setXfer_cfgNow (x : Xfer) : (b.setXfer x).cfgNow = b.cfgNow := rfl
@[simp] theorem Blk.setXfer_raised (x : Xfer) : (b.setXfer x).raised = b.raised := rfl
@[simp] theorem Blk.setXfer_aniseNow (x : Xfer) : (b.setXfer x).aniseNow = b.aniseNow := rfl
@[simp] theorem Blk.setXfer_tick (x : Xfer) : (b.setXfer x).tick = b.tick := rfl
@[simp] theorem Blk.setXfer_sched (x : Xfer) : (b.setXfer x).sched = b.sched := rfl
@[simp] theorem Blk.setXfer_ops (x : Xfer) : (b.setXfer x).ops = b.ops := rfl
@[simp] theorem Blk.setXfer_writes (x : Xfer) : (b.setXfer x).writes = b.writes := rfl
@[simp] theorem Blk.setXfer_outs (x : Xfer) : (b.setXfer x).outs = b.outs := rfl
@[simp] theorem Blk.setXfer_buses (x : Xfer) : (b.setXfer x).buses = b.buses := rfl
@[simp] theorem Blk.setXfer_reqs (x : Xfer) : (b.setXfer x).reqs = b.reqs := rfl
@[simp] theorem Blk.setXfer_gather (x : Xfer) : (b.setXfer x).gather = b.gather := rfl
@[simp] theorem Blk.setXfer_gStaged (x : Xfer) : (b.setXfer x).gStaged = b.gStaged := rfl
@[simp] theorem Blk.setXfer_gNext (x : Xfer) : (b.setXfer x).gNext = b.gNext := rfl
@[simp] theorem Blk.setXfer_sems (x : Xfer) : (b.setXfer x).sems = b.sems := rfl
@[simp] theorem Blk.setXfer_replayQ (x : Xfer) : (b.setXfer x).replayQ = b.replayQ := rfl
@[simp] theorem Blk.setXfer_replayNow (x : Xfer) : (b.setXfer x).replayNow = b.replayNow := rfl
@[simp] theorem Blk.setXfer_replayNext (x : Xfer) : (b.setXfer x).replayNext = b.replayNext := rfl
@[simp] theorem Blk.setXfer_heldCfg (x : Xfer) : (b.setXfer x).heldCfg = b.heldCfg := rfl
@[simp] theorem Blk.setXfer_scrubRow (x : Xfer) : (b.setXfer x).scrubRow = b.scrubRow := rfl
@[simp] theorem Blk.setXfer_imgLo (x : Xfer) : (b.setXfer x).imgLo = b.imgLo := rfl
@[simp] theorem Blk.setXfer_imgHi (x : Xfer) : (b.setXfer x).imgHi = b.imgHi := rfl
@[simp] theorem Blk.setXfer_fixed (x : Xfer) : (b.setXfer x).fixed = b.fixed := rfl
@[simp] theorem Blk.setXfer_roundAt (x : Xfer) : (b.setXfer x).roundAt = b.roundAt := rfl
@[simp] theorem Blk.setXfer_refused (x : Xfer) : (b.setXfer x).refused = b.refused := rfl
@[simp] theorem Blk.setXfer_withdrawn (x : Xfer) : (b.setXfer x).withdrawn = b.withdrawn := rfl
@[simp] theorem Blk.setXfer_adderNext (x : Xfer) : (b.setXfer x).adderNext = b.adderNext := rfl
@[simp] theorem Blk.setXfer_adderEnd (x : Xfer) : (b.setXfer x).adderEnd = b.adderEnd := rfl
@[simp] theorem Blk.setXfer_droveAt (x : Xfer) : (b.setXfer x).droveAt = b.droveAt := rfl
@[simp] theorem Blk.setXfer_rwWait (x : Xfer) : (b.setXfer x).rwWait = b.rwWait := rfl
@[simp] theorem Blk.setXfer_epOff (x : Xfer) : (b.setXfer x).epOff = b.epOff := rfl
@[simp] theorem Blk.setXfer_mx (x : Xfer) : (b.setXfer x).mx = b.mx := rfl
@[simp] theorem Blk.setXfer_wrapper (x : Xfer) : (b.setXfer x).wrapper = b.wrapper := rfl
@[simp] theorem Blk.setXfer_ring (x : Xfer) : (b.setXfer x).ring = b.ring := rfl
@[simp] theorem Blk.setXfer_pwr (x : Xfer) : (b.setXfer x).pwr = b.pwr := rfl
@[simp] theorem Blk.setXfer_sr (x : Xfer) : (b.setXfer x).sr = b.sr := rfl
@[simp] theorem Blk.setXfer_flt (x : Xfer) : (b.setXfer x).flt = b.flt := rfl
@[simp] theorem Blk.setXfer_opNo (x : Xfer) : (b.setXfer x).opNo = b.opNo := rfl
@[simp] theorem Blk.setXfer_wNo (x : Xfer) : (b.setXfer x).wNo = b.wNo := rfl
@[simp] theorem Blk.setXfer_tnNo (x : Xfer) : (b.setXfer x).tnNo = b.tnNo := rfl
@[simp] theorem Blk.setXfer_fresh (x : Xfer) : (b.setXfer x).fresh = b.fresh := rfl

/-! ### `setSem` -/

@[simp] theorem Blk.setSem_lc (m : SemOp) : (b.setSem m).lc = b.lc := rfl
@[simp] theorem Blk.setSem_pins (m : SemOp) : (b.setSem m).pins = b.pins := rfl
@[simp] theorem Blk.setSem_regs (m : SemOp) : (b.setSem m).regs = b.regs := rfl
@[simp] theorem Blk.setSem_recs (m : SemOp) : (b.setSem m).recs = b.recs := rfl
@[simp] theorem Blk.setSem_force (m : SemOp) : (b.setSem m).force = b.force := rfl
@[simp] theorem Blk.setSem_anise (m : SemOp) : (b.setSem m).anise = b.anise := rfl
@[simp] theorem Blk.setSem_clove (m : SemOp) : (b.setSem m).clove = b.clove := rfl
@[simp] theorem Blk.setSem_ckpt (m : SemOp) : (b.setSem m).ckpt = b.ckpt := rfl
@[simp] theorem Blk.setSem_trace (m : SemOp) : (b.setSem m).trace = b.trace := rfl
@[simp] theorem Blk.setSem_tiles (m : SemOp) : (b.setSem m).tiles = b.tiles := rfl
@[simp] theorem Blk.setSem_seen (m : SemOp) : (b.setSem m).seen = b.seen := rfl
@[simp] theorem Blk.setSem_eccSeen (m : SemOp) : (b.setSem m).eccSeen = b.eccSeen := rfl
@[simp] theorem Blk.setSem_cfgNow (m : SemOp) : (b.setSem m).cfgNow = b.cfgNow := rfl
@[simp] theorem Blk.setSem_raised (m : SemOp) : (b.setSem m).raised = b.raised := rfl
@[simp] theorem Blk.setSem_aniseNow (m : SemOp) : (b.setSem m).aniseNow = b.aniseNow := rfl
@[simp] theorem Blk.setSem_tick (m : SemOp) : (b.setSem m).tick = b.tick := rfl
@[simp] theorem Blk.setSem_sched (m : SemOp) : (b.setSem m).sched = b.sched := rfl
@[simp] theorem Blk.setSem_ops (m : SemOp) : (b.setSem m).ops = b.ops := rfl
@[simp] theorem Blk.setSem_writes (m : SemOp) : (b.setSem m).writes = b.writes := rfl
@[simp] theorem Blk.setSem_outs (m : SemOp) : (b.setSem m).outs = b.outs := rfl
@[simp] theorem Blk.setSem_buses (m : SemOp) : (b.setSem m).buses = b.buses := rfl
@[simp] theorem Blk.setSem_reqs (m : SemOp) : (b.setSem m).reqs = b.reqs := rfl
@[simp] theorem Blk.setSem_xfers (m : SemOp) : (b.setSem m).xfers = b.xfers := rfl
@[simp] theorem Blk.setSem_gather (m : SemOp) : (b.setSem m).gather = b.gather := rfl
@[simp] theorem Blk.setSem_gStaged (m : SemOp) : (b.setSem m).gStaged = b.gStaged := rfl
@[simp] theorem Blk.setSem_gNext (m : SemOp) : (b.setSem m).gNext = b.gNext := rfl
@[simp] theorem Blk.setSem_replayQ (m : SemOp) : (b.setSem m).replayQ = b.replayQ := rfl
@[simp] theorem Blk.setSem_replayNow (m : SemOp) : (b.setSem m).replayNow = b.replayNow := rfl
@[simp] theorem Blk.setSem_replayNext (m : SemOp) : (b.setSem m).replayNext = b.replayNext := rfl
@[simp] theorem Blk.setSem_heldCfg (m : SemOp) : (b.setSem m).heldCfg = b.heldCfg := rfl
@[simp] theorem Blk.setSem_scrubRow (m : SemOp) : (b.setSem m).scrubRow = b.scrubRow := rfl
@[simp] theorem Blk.setSem_imgLo (m : SemOp) : (b.setSem m).imgLo = b.imgLo := rfl
@[simp] theorem Blk.setSem_imgHi (m : SemOp) : (b.setSem m).imgHi = b.imgHi := rfl
@[simp] theorem Blk.setSem_fixed (m : SemOp) : (b.setSem m).fixed = b.fixed := rfl
@[simp] theorem Blk.setSem_roundAt (m : SemOp) : (b.setSem m).roundAt = b.roundAt := rfl
@[simp] theorem Blk.setSem_refused (m : SemOp) : (b.setSem m).refused = b.refused := rfl
@[simp] theorem Blk.setSem_withdrawn (m : SemOp) : (b.setSem m).withdrawn = b.withdrawn := rfl
@[simp] theorem Blk.setSem_adderNext (m : SemOp) : (b.setSem m).adderNext = b.adderNext := rfl
@[simp] theorem Blk.setSem_adderEnd (m : SemOp) : (b.setSem m).adderEnd = b.adderEnd := rfl
@[simp] theorem Blk.setSem_droveAt (m : SemOp) : (b.setSem m).droveAt = b.droveAt := rfl
@[simp] theorem Blk.setSem_rwWait (m : SemOp) : (b.setSem m).rwWait = b.rwWait := rfl
@[simp] theorem Blk.setSem_epOff (m : SemOp) : (b.setSem m).epOff = b.epOff := rfl
@[simp] theorem Blk.setSem_mx (m : SemOp) : (b.setSem m).mx = b.mx := rfl
@[simp] theorem Blk.setSem_wrapper (m : SemOp) : (b.setSem m).wrapper = b.wrapper := rfl
@[simp] theorem Blk.setSem_ring (m : SemOp) : (b.setSem m).ring = b.ring := rfl
@[simp] theorem Blk.setSem_pwr (m : SemOp) : (b.setSem m).pwr = b.pwr := rfl
@[simp] theorem Blk.setSem_sr (m : SemOp) : (b.setSem m).sr = b.sr := rfl
@[simp] theorem Blk.setSem_flt (m : SemOp) : (b.setSem m).flt = b.flt := rfl
@[simp] theorem Blk.setSem_opNo (m : SemOp) : (b.setSem m).opNo = b.opNo := rfl
@[simp] theorem Blk.setSem_wNo (m : SemOp) : (b.setSem m).wNo = b.wNo := rfl
@[simp] theorem Blk.setSem_tnNo (m : SemOp) : (b.setSem m).tnNo = b.tnNo := rfl
@[simp] theorem Blk.setSem_fresh (m : SemOp) : (b.setSem m).fresh = b.fresh := rfl

/-! ### `setSync` -/

@[simp] theorem Blk.setSync_lc (i : Nat) (v : Bool) : (b.setSync i v).lc = b.lc := rfl
@[simp] theorem Blk.setSync_pins (i : Nat) (v : Bool) : (b.setSync i v).pins = b.pins := rfl
@[simp] theorem Blk.setSync_recs (i : Nat) (v : Bool) : (b.setSync i v).recs = b.recs := rfl
@[simp] theorem Blk.setSync_force (i : Nat) (v : Bool) : (b.setSync i v).force = b.force := rfl
@[simp] theorem Blk.setSync_anise (i : Nat) (v : Bool) : (b.setSync i v).anise = b.anise := rfl
@[simp] theorem Blk.setSync_clove (i : Nat) (v : Bool) : (b.setSync i v).clove = b.clove := rfl
@[simp] theorem Blk.setSync_ckpt (i : Nat) (v : Bool) : (b.setSync i v).ckpt = b.ckpt := rfl
@[simp] theorem Blk.setSync_trace (i : Nat) (v : Bool) : (b.setSync i v).trace = b.trace := rfl
@[simp] theorem Blk.setSync_tiles (i : Nat) (v : Bool) : (b.setSync i v).tiles = b.tiles := rfl
@[simp] theorem Blk.setSync_seen (i : Nat) (v : Bool) : (b.setSync i v).seen = b.seen := rfl
@[simp] theorem Blk.setSync_eccSeen (i : Nat) (v : Bool) : (b.setSync i v).eccSeen = b.eccSeen := rfl
@[simp] theorem Blk.setSync_cfgNow (i : Nat) (v : Bool) : (b.setSync i v).cfgNow = b.cfgNow := rfl
@[simp] theorem Blk.setSync_raised (i : Nat) (v : Bool) : (b.setSync i v).raised = b.raised := rfl
@[simp] theorem Blk.setSync_aniseNow (i : Nat) (v : Bool) : (b.setSync i v).aniseNow = b.aniseNow := rfl
@[simp] theorem Blk.setSync_tick (i : Nat) (v : Bool) : (b.setSync i v).tick = b.tick := rfl
@[simp] theorem Blk.setSync_sched (i : Nat) (v : Bool) : (b.setSync i v).sched = b.sched := rfl
@[simp] theorem Blk.setSync_ops (i : Nat) (v : Bool) : (b.setSync i v).ops = b.ops := rfl
@[simp] theorem Blk.setSync_writes (i : Nat) (v : Bool) : (b.setSync i v).writes = b.writes := rfl
@[simp] theorem Blk.setSync_outs (i : Nat) (v : Bool) : (b.setSync i v).outs = b.outs := rfl
@[simp] theorem Blk.setSync_buses (i : Nat) (v : Bool) : (b.setSync i v).buses = b.buses := rfl
@[simp] theorem Blk.setSync_reqs (i : Nat) (v : Bool) : (b.setSync i v).reqs = b.reqs := rfl
@[simp] theorem Blk.setSync_xfers (i : Nat) (v : Bool) : (b.setSync i v).xfers = b.xfers := rfl
@[simp] theorem Blk.setSync_gather (i : Nat) (v : Bool) : (b.setSync i v).gather = b.gather := rfl
@[simp] theorem Blk.setSync_gStaged (i : Nat) (v : Bool) : (b.setSync i v).gStaged = b.gStaged := rfl
@[simp] theorem Blk.setSync_gNext (i : Nat) (v : Bool) : (b.setSync i v).gNext = b.gNext := rfl
@[simp] theorem Blk.setSync_sems (i : Nat) (v : Bool) : (b.setSync i v).sems = b.sems := rfl
@[simp] theorem Blk.setSync_replayQ (i : Nat) (v : Bool) : (b.setSync i v).replayQ = b.replayQ := rfl
@[simp] theorem Blk.setSync_replayNow (i : Nat) (v : Bool) : (b.setSync i v).replayNow = b.replayNow := rfl
@[simp] theorem Blk.setSync_replayNext (i : Nat) (v : Bool) : (b.setSync i v).replayNext = b.replayNext := rfl
@[simp] theorem Blk.setSync_heldCfg (i : Nat) (v : Bool) : (b.setSync i v).heldCfg = b.heldCfg := rfl
@[simp] theorem Blk.setSync_scrubRow (i : Nat) (v : Bool) : (b.setSync i v).scrubRow = b.scrubRow := rfl
@[simp] theorem Blk.setSync_imgLo (i : Nat) (v : Bool) : (b.setSync i v).imgLo = b.imgLo := rfl
@[simp] theorem Blk.setSync_imgHi (i : Nat) (v : Bool) : (b.setSync i v).imgHi = b.imgHi := rfl
@[simp] theorem Blk.setSync_fixed (i : Nat) (v : Bool) : (b.setSync i v).fixed = b.fixed := rfl
@[simp] theorem Blk.setSync_roundAt (i : Nat) (v : Bool) : (b.setSync i v).roundAt = b.roundAt := rfl
@[simp] theorem Blk.setSync_refused (i : Nat) (v : Bool) : (b.setSync i v).refused = b.refused := rfl
@[simp] theorem Blk.setSync_withdrawn (i : Nat) (v : Bool) : (b.setSync i v).withdrawn = b.withdrawn := rfl
@[simp] theorem Blk.setSync_adderNext (i : Nat) (v : Bool) : (b.setSync i v).adderNext = b.adderNext := rfl
@[simp] theorem Blk.setSync_adderEnd (i : Nat) (v : Bool) : (b.setSync i v).adderEnd = b.adderEnd := rfl
@[simp] theorem Blk.setSync_droveAt (i : Nat) (v : Bool) : (b.setSync i v).droveAt = b.droveAt := rfl
@[simp] theorem Blk.setSync_rwWait (i : Nat) (v : Bool) : (b.setSync i v).rwWait = b.rwWait := rfl
@[simp] theorem Blk.setSync_epOff (i : Nat) (v : Bool) : (b.setSync i v).epOff = b.epOff := rfl
@[simp] theorem Blk.setSync_mx (i : Nat) (v : Bool) : (b.setSync i v).mx = b.mx := rfl
@[simp] theorem Blk.setSync_wrapper (i : Nat) (v : Bool) : (b.setSync i v).wrapper = b.wrapper := rfl
@[simp] theorem Blk.setSync_ring (i : Nat) (v : Bool) : (b.setSync i v).ring = b.ring := rfl
@[simp] theorem Blk.setSync_pwr (i : Nat) (v : Bool) : (b.setSync i v).pwr = b.pwr := rfl
@[simp] theorem Blk.setSync_sr (i : Nat) (v : Bool) : (b.setSync i v).sr = b.sr := rfl
@[simp] theorem Blk.setSync_flt (i : Nat) (v : Bool) : (b.setSync i v).flt = b.flt := rfl
@[simp] theorem Blk.setSync_opNo (i : Nat) (v : Bool) : (b.setSync i v).opNo = b.opNo := rfl
@[simp] theorem Blk.setSync_wNo (i : Nat) (v : Bool) : (b.setSync i v).wNo = b.wNo := rfl
@[simp] theorem Blk.setSync_tnNo (i : Nat) (v : Bool) : (b.setSync i v).tnNo = b.tnNo := rfl
@[simp] theorem Blk.setSync_fresh (i : Nat) (v : Bool) : (b.setSync i v).fresh = b.fresh := rfl

/-! ### `idFlag` -/

@[simp] theorem Blk.idFlag_lc (i : Nat) (v : Bool) : (b.idFlag i v).lc = b.lc := rfl
@[simp] theorem Blk.idFlag_pins (i : Nat) (v : Bool) : (b.idFlag i v).pins = b.pins := rfl
@[simp] theorem Blk.idFlag_recs (i : Nat) (v : Bool) : (b.idFlag i v).recs = b.recs := rfl
@[simp] theorem Blk.idFlag_force (i : Nat) (v : Bool) : (b.idFlag i v).force = b.force := rfl
@[simp] theorem Blk.idFlag_anise (i : Nat) (v : Bool) : (b.idFlag i v).anise = b.anise := rfl
@[simp] theorem Blk.idFlag_clove (i : Nat) (v : Bool) : (b.idFlag i v).clove = b.clove := rfl
@[simp] theorem Blk.idFlag_ckpt (i : Nat) (v : Bool) : (b.idFlag i v).ckpt = b.ckpt := rfl
@[simp] theorem Blk.idFlag_trace (i : Nat) (v : Bool) : (b.idFlag i v).trace = b.trace := rfl
@[simp] theorem Blk.idFlag_tiles (i : Nat) (v : Bool) : (b.idFlag i v).tiles = b.tiles := rfl
@[simp] theorem Blk.idFlag_seen (i : Nat) (v : Bool) : (b.idFlag i v).seen = b.seen := rfl
@[simp] theorem Blk.idFlag_eccSeen (i : Nat) (v : Bool) : (b.idFlag i v).eccSeen = b.eccSeen := rfl
@[simp] theorem Blk.idFlag_cfgNow (i : Nat) (v : Bool) : (b.idFlag i v).cfgNow = b.cfgNow := rfl
@[simp] theorem Blk.idFlag_raised (i : Nat) (v : Bool) : (b.idFlag i v).raised = b.raised := rfl
@[simp] theorem Blk.idFlag_aniseNow (i : Nat) (v : Bool) : (b.idFlag i v).aniseNow = b.aniseNow := rfl
@[simp] theorem Blk.idFlag_tick (i : Nat) (v : Bool) : (b.idFlag i v).tick = b.tick := rfl
@[simp] theorem Blk.idFlag_sched (i : Nat) (v : Bool) : (b.idFlag i v).sched = b.sched := rfl
@[simp] theorem Blk.idFlag_ops (i : Nat) (v : Bool) : (b.idFlag i v).ops = b.ops := rfl
@[simp] theorem Blk.idFlag_writes (i : Nat) (v : Bool) : (b.idFlag i v).writes = b.writes := rfl
@[simp] theorem Blk.idFlag_outs (i : Nat) (v : Bool) : (b.idFlag i v).outs = b.outs := rfl
@[simp] theorem Blk.idFlag_buses (i : Nat) (v : Bool) : (b.idFlag i v).buses = b.buses := rfl
@[simp] theorem Blk.idFlag_reqs (i : Nat) (v : Bool) : (b.idFlag i v).reqs = b.reqs := rfl
@[simp] theorem Blk.idFlag_xfers (i : Nat) (v : Bool) : (b.idFlag i v).xfers = b.xfers := rfl
@[simp] theorem Blk.idFlag_gather (i : Nat) (v : Bool) : (b.idFlag i v).gather = b.gather := rfl
@[simp] theorem Blk.idFlag_gStaged (i : Nat) (v : Bool) : (b.idFlag i v).gStaged = b.gStaged := rfl
@[simp] theorem Blk.idFlag_gNext (i : Nat) (v : Bool) : (b.idFlag i v).gNext = b.gNext := rfl
@[simp] theorem Blk.idFlag_sems (i : Nat) (v : Bool) : (b.idFlag i v).sems = b.sems := rfl
@[simp] theorem Blk.idFlag_replayQ (i : Nat) (v : Bool) : (b.idFlag i v).replayQ = b.replayQ := rfl
@[simp] theorem Blk.idFlag_replayNow (i : Nat) (v : Bool) : (b.idFlag i v).replayNow = b.replayNow := rfl
@[simp] theorem Blk.idFlag_replayNext (i : Nat) (v : Bool) : (b.idFlag i v).replayNext = b.replayNext := rfl
@[simp] theorem Blk.idFlag_heldCfg (i : Nat) (v : Bool) : (b.idFlag i v).heldCfg = b.heldCfg := rfl
@[simp] theorem Blk.idFlag_scrubRow (i : Nat) (v : Bool) : (b.idFlag i v).scrubRow = b.scrubRow := rfl
@[simp] theorem Blk.idFlag_imgLo (i : Nat) (v : Bool) : (b.idFlag i v).imgLo = b.imgLo := rfl
@[simp] theorem Blk.idFlag_imgHi (i : Nat) (v : Bool) : (b.idFlag i v).imgHi = b.imgHi := rfl
@[simp] theorem Blk.idFlag_fixed (i : Nat) (v : Bool) : (b.idFlag i v).fixed = b.fixed := rfl
@[simp] theorem Blk.idFlag_roundAt (i : Nat) (v : Bool) : (b.idFlag i v).roundAt = b.roundAt := rfl
@[simp] theorem Blk.idFlag_refused (i : Nat) (v : Bool) : (b.idFlag i v).refused = b.refused := rfl
@[simp] theorem Blk.idFlag_withdrawn (i : Nat) (v : Bool) : (b.idFlag i v).withdrawn = b.withdrawn := rfl
@[simp] theorem Blk.idFlag_adderNext (i : Nat) (v : Bool) : (b.idFlag i v).adderNext = b.adderNext := rfl
@[simp] theorem Blk.idFlag_adderEnd (i : Nat) (v : Bool) : (b.idFlag i v).adderEnd = b.adderEnd := rfl
@[simp] theorem Blk.idFlag_droveAt (i : Nat) (v : Bool) : (b.idFlag i v).droveAt = b.droveAt := rfl
@[simp] theorem Blk.idFlag_rwWait (i : Nat) (v : Bool) : (b.idFlag i v).rwWait = b.rwWait := rfl
@[simp] theorem Blk.idFlag_epOff (i : Nat) (v : Bool) : (b.idFlag i v).epOff = b.epOff := rfl
@[simp] theorem Blk.idFlag_mx (i : Nat) (v : Bool) : (b.idFlag i v).mx = b.mx := rfl
@[simp] theorem Blk.idFlag_wrapper (i : Nat) (v : Bool) : (b.idFlag i v).wrapper = b.wrapper := rfl
@[simp] theorem Blk.idFlag_ring (i : Nat) (v : Bool) : (b.idFlag i v).ring = b.ring := rfl
@[simp] theorem Blk.idFlag_pwr (i : Nat) (v : Bool) : (b.idFlag i v).pwr = b.pwr := rfl
@[simp] theorem Blk.idFlag_sr (i : Nat) (v : Bool) : (b.idFlag i v).sr = b.sr := rfl
@[simp] theorem Blk.idFlag_flt (i : Nat) (v : Bool) : (b.idFlag i v).flt = b.flt := rfl
@[simp] theorem Blk.idFlag_opNo (i : Nat) (v : Bool) : (b.idFlag i v).opNo = b.opNo := rfl
@[simp] theorem Blk.idFlag_wNo (i : Nat) (v : Bool) : (b.idFlag i v).wNo = b.wNo := rfl
@[simp] theorem Blk.idFlag_tnNo (i : Nat) (v : Bool) : (b.idFlag i v).tnNo = b.tnNo := rfl
@[simp] theorem Blk.idFlag_fresh (i : Nat) (v : Bool) : (b.idFlag i v).fresh = b.fresh := rfl

/-! ### `mxErr` -/

@[simp] theorem Blk.mxErr_lc (m t kind a : Nat) : (b.mxErr m t kind a).lc = b.lc := rfl
@[simp] theorem Blk.mxErr_pins (m t kind a : Nat) : (b.mxErr m t kind a).pins = b.pins := rfl
@[simp] theorem Blk.mxErr_regs (m t kind a : Nat) : (b.mxErr m t kind a).regs = b.regs := rfl
@[simp] theorem Blk.mxErr_force (m t kind a : Nat) : (b.mxErr m t kind a).force = b.force := rfl
@[simp] theorem Blk.mxErr_anise (m t kind a : Nat) : (b.mxErr m t kind a).anise = b.anise := rfl
@[simp] theorem Blk.mxErr_clove (m t kind a : Nat) : (b.mxErr m t kind a).clove = b.clove := rfl
@[simp] theorem Blk.mxErr_ckpt (m t kind a : Nat) : (b.mxErr m t kind a).ckpt = b.ckpt := rfl
@[simp] theorem Blk.mxErr_trace (m t kind a : Nat) : (b.mxErr m t kind a).trace = b.trace := rfl
@[simp] theorem Blk.mxErr_tiles (m t kind a : Nat) : (b.mxErr m t kind a).tiles = b.tiles := rfl
@[simp] theorem Blk.mxErr_seen (m t kind a : Nat) : (b.mxErr m t kind a).seen = b.seen := rfl
@[simp] theorem Blk.mxErr_eccSeen (m t kind a : Nat) : (b.mxErr m t kind a).eccSeen = b.eccSeen := rfl
@[simp] theorem Blk.mxErr_cfgNow (m t kind a : Nat) : (b.mxErr m t kind a).cfgNow = b.cfgNow := rfl
@[simp] theorem Blk.mxErr_raised (m t kind a : Nat) : (b.mxErr m t kind a).raised = b.raised := rfl
@[simp] theorem Blk.mxErr_aniseNow (m t kind a : Nat) : (b.mxErr m t kind a).aniseNow = b.aniseNow := rfl
@[simp] theorem Blk.mxErr_tick (m t kind a : Nat) : (b.mxErr m t kind a).tick = b.tick := rfl
@[simp] theorem Blk.mxErr_sched (m t kind a : Nat) : (b.mxErr m t kind a).sched = b.sched := rfl
@[simp] theorem Blk.mxErr_ops (m t kind a : Nat) : (b.mxErr m t kind a).ops = b.ops := rfl
@[simp] theorem Blk.mxErr_writes (m t kind a : Nat) : (b.mxErr m t kind a).writes = b.writes := rfl
@[simp] theorem Blk.mxErr_outs (m t kind a : Nat) : (b.mxErr m t kind a).outs = b.outs := rfl
@[simp] theorem Blk.mxErr_buses (m t kind a : Nat) : (b.mxErr m t kind a).buses = b.buses := rfl
@[simp] theorem Blk.mxErr_reqs (m t kind a : Nat) : (b.mxErr m t kind a).reqs = b.reqs := rfl
@[simp] theorem Blk.mxErr_xfers (m t kind a : Nat) : (b.mxErr m t kind a).xfers = b.xfers := rfl
@[simp] theorem Blk.mxErr_gather (m t kind a : Nat) : (b.mxErr m t kind a).gather = b.gather := rfl
@[simp] theorem Blk.mxErr_gStaged (m t kind a : Nat) : (b.mxErr m t kind a).gStaged = b.gStaged := rfl
@[simp] theorem Blk.mxErr_gNext (m t kind a : Nat) : (b.mxErr m t kind a).gNext = b.gNext := rfl
@[simp] theorem Blk.mxErr_sems (m t kind a : Nat) : (b.mxErr m t kind a).sems = b.sems := rfl
@[simp] theorem Blk.mxErr_replayQ (m t kind a : Nat) : (b.mxErr m t kind a).replayQ = b.replayQ := rfl
@[simp] theorem Blk.mxErr_replayNow (m t kind a : Nat) : (b.mxErr m t kind a).replayNow = b.replayNow := rfl
@[simp] theorem Blk.mxErr_replayNext (m t kind a : Nat) : (b.mxErr m t kind a).replayNext = b.replayNext := rfl
@[simp] theorem Blk.mxErr_heldCfg (m t kind a : Nat) : (b.mxErr m t kind a).heldCfg = b.heldCfg := rfl
@[simp] theorem Blk.mxErr_scrubRow (m t kind a : Nat) : (b.mxErr m t kind a).scrubRow = b.scrubRow := rfl
@[simp] theorem Blk.mxErr_imgLo (m t kind a : Nat) : (b.mxErr m t kind a).imgLo = b.imgLo := rfl
@[simp] theorem Blk.mxErr_imgHi (m t kind a : Nat) : (b.mxErr m t kind a).imgHi = b.imgHi := rfl
@[simp] theorem Blk.mxErr_fixed (m t kind a : Nat) : (b.mxErr m t kind a).fixed = b.fixed := rfl
@[simp] theorem Blk.mxErr_roundAt (m t kind a : Nat) : (b.mxErr m t kind a).roundAt = b.roundAt := rfl
@[simp] theorem Blk.mxErr_refused (m t kind a : Nat) : (b.mxErr m t kind a).refused = b.refused := rfl
@[simp] theorem Blk.mxErr_withdrawn (m t kind a : Nat) : (b.mxErr m t kind a).withdrawn = b.withdrawn := rfl
@[simp] theorem Blk.mxErr_adderNext (m t kind a : Nat) : (b.mxErr m t kind a).adderNext = b.adderNext := rfl
@[simp] theorem Blk.mxErr_adderEnd (m t kind a : Nat) : (b.mxErr m t kind a).adderEnd = b.adderEnd := rfl
@[simp] theorem Blk.mxErr_droveAt (m t kind a : Nat) : (b.mxErr m t kind a).droveAt = b.droveAt := rfl
@[simp] theorem Blk.mxErr_rwWait (m t kind a : Nat) : (b.mxErr m t kind a).rwWait = b.rwWait := rfl
@[simp] theorem Blk.mxErr_epOff (m t kind a : Nat) : (b.mxErr m t kind a).epOff = b.epOff := rfl
@[simp] theorem Blk.mxErr_mx (m t kind a : Nat) : (b.mxErr m t kind a).mx = b.mx := rfl
@[simp] theorem Blk.mxErr_wrapper (m t kind a : Nat) : (b.mxErr m t kind a).wrapper = b.wrapper := rfl
@[simp] theorem Blk.mxErr_ring (m t kind a : Nat) : (b.mxErr m t kind a).ring = b.ring := rfl
@[simp] theorem Blk.mxErr_pwr (m t kind a : Nat) : (b.mxErr m t kind a).pwr = b.pwr := rfl
@[simp] theorem Blk.mxErr_sr (m t kind a : Nat) : (b.mxErr m t kind a).sr = b.sr := rfl
@[simp] theorem Blk.mxErr_flt (m t kind a : Nat) : (b.mxErr m t kind a).flt = b.flt := rfl
@[simp] theorem Blk.mxErr_opNo (m t kind a : Nat) : (b.mxErr m t kind a).opNo = b.opNo := rfl
@[simp] theorem Blk.mxErr_wNo (m t kind a : Nat) : (b.mxErr m t kind a).wNo = b.wNo := rfl
@[simp] theorem Blk.mxErr_tnNo (m t kind a : Nat) : (b.mxErr m t kind a).tnNo = b.tnNo := rfl
@[simp] theorem Blk.mxErr_fresh (m t kind a : Nat) : (b.mxErr m t kind a).fresh = b.fresh := rfl

/-! ### `mxResp` -/

@[simp] theorem Blk.mxResp_lc (m kind : Nat) (bs : List Byte) : (b.mxResp m kind bs).lc = b.lc := rfl
@[simp] theorem Blk.mxResp_pins (m kind : Nat) (bs : List Byte) : (b.mxResp m kind bs).pins = b.pins := rfl
@[simp] theorem Blk.mxResp_regs (m kind : Nat) (bs : List Byte) : (b.mxResp m kind bs).regs = b.regs := rfl
@[simp] theorem Blk.mxResp_recs (m kind : Nat) (bs : List Byte) : (b.mxResp m kind bs).recs = b.recs := rfl
@[simp] theorem Blk.mxResp_force (m kind : Nat) (bs : List Byte) : (b.mxResp m kind bs).force = b.force := rfl
@[simp] theorem Blk.mxResp_anise (m kind : Nat) (bs : List Byte) : (b.mxResp m kind bs).anise = b.anise := rfl
@[simp] theorem Blk.mxResp_clove (m kind : Nat) (bs : List Byte) : (b.mxResp m kind bs).clove = b.clove := rfl
@[simp] theorem Blk.mxResp_ckpt (m kind : Nat) (bs : List Byte) : (b.mxResp m kind bs).ckpt = b.ckpt := rfl
@[simp] theorem Blk.mxResp_trace (m kind : Nat) (bs : List Byte) : (b.mxResp m kind bs).trace = b.trace := rfl
@[simp] theorem Blk.mxResp_tiles (m kind : Nat) (bs : List Byte) : (b.mxResp m kind bs).tiles = b.tiles := rfl
@[simp] theorem Blk.mxResp_seen (m kind : Nat) (bs : List Byte) : (b.mxResp m kind bs).seen = b.seen := rfl
@[simp] theorem Blk.mxResp_eccSeen (m kind : Nat) (bs : List Byte) : (b.mxResp m kind bs).eccSeen = b.eccSeen := rfl
@[simp] theorem Blk.mxResp_cfgNow (m kind : Nat) (bs : List Byte) : (b.mxResp m kind bs).cfgNow = b.cfgNow := rfl
@[simp] theorem Blk.mxResp_raised (m kind : Nat) (bs : List Byte) : (b.mxResp m kind bs).raised = b.raised := rfl
@[simp] theorem Blk.mxResp_aniseNow (m kind : Nat) (bs : List Byte) : (b.mxResp m kind bs).aniseNow = b.aniseNow := rfl
@[simp] theorem Blk.mxResp_tick (m kind : Nat) (bs : List Byte) : (b.mxResp m kind bs).tick = b.tick := rfl
@[simp] theorem Blk.mxResp_sched (m kind : Nat) (bs : List Byte) : (b.mxResp m kind bs).sched = b.sched := rfl
@[simp] theorem Blk.mxResp_ops (m kind : Nat) (bs : List Byte) : (b.mxResp m kind bs).ops = b.ops := rfl
@[simp] theorem Blk.mxResp_writes (m kind : Nat) (bs : List Byte) : (b.mxResp m kind bs).writes = b.writes := rfl
@[simp] theorem Blk.mxResp_outs (m kind : Nat) (bs : List Byte) : (b.mxResp m kind bs).outs = b.outs := rfl
@[simp] theorem Blk.mxResp_buses (m kind : Nat) (bs : List Byte) : (b.mxResp m kind bs).buses = b.buses := rfl
@[simp] theorem Blk.mxResp_reqs (m kind : Nat) (bs : List Byte) : (b.mxResp m kind bs).reqs = b.reqs := rfl
@[simp] theorem Blk.mxResp_xfers (m kind : Nat) (bs : List Byte) : (b.mxResp m kind bs).xfers = b.xfers := rfl
@[simp] theorem Blk.mxResp_gather (m kind : Nat) (bs : List Byte) : (b.mxResp m kind bs).gather = b.gather := rfl
@[simp] theorem Blk.mxResp_gStaged (m kind : Nat) (bs : List Byte) : (b.mxResp m kind bs).gStaged = b.gStaged := rfl
@[simp] theorem Blk.mxResp_gNext (m kind : Nat) (bs : List Byte) : (b.mxResp m kind bs).gNext = b.gNext := rfl
@[simp] theorem Blk.mxResp_sems (m kind : Nat) (bs : List Byte) : (b.mxResp m kind bs).sems = b.sems := rfl
@[simp] theorem Blk.mxResp_replayQ (m kind : Nat) (bs : List Byte) : (b.mxResp m kind bs).replayQ = b.replayQ := rfl
@[simp] theorem Blk.mxResp_replayNow (m kind : Nat) (bs : List Byte) : (b.mxResp m kind bs).replayNow = b.replayNow := rfl
@[simp] theorem Blk.mxResp_replayNext (m kind : Nat) (bs : List Byte) : (b.mxResp m kind bs).replayNext = b.replayNext := rfl
@[simp] theorem Blk.mxResp_heldCfg (m kind : Nat) (bs : List Byte) : (b.mxResp m kind bs).heldCfg = b.heldCfg := rfl
@[simp] theorem Blk.mxResp_scrubRow (m kind : Nat) (bs : List Byte) : (b.mxResp m kind bs).scrubRow = b.scrubRow := rfl
@[simp] theorem Blk.mxResp_imgLo (m kind : Nat) (bs : List Byte) : (b.mxResp m kind bs).imgLo = b.imgLo := rfl
@[simp] theorem Blk.mxResp_imgHi (m kind : Nat) (bs : List Byte) : (b.mxResp m kind bs).imgHi = b.imgHi := rfl
@[simp] theorem Blk.mxResp_fixed (m kind : Nat) (bs : List Byte) : (b.mxResp m kind bs).fixed = b.fixed := rfl
@[simp] theorem Blk.mxResp_roundAt (m kind : Nat) (bs : List Byte) : (b.mxResp m kind bs).roundAt = b.roundAt := rfl
@[simp] theorem Blk.mxResp_refused (m kind : Nat) (bs : List Byte) : (b.mxResp m kind bs).refused = b.refused := rfl
@[simp] theorem Blk.mxResp_withdrawn (m kind : Nat) (bs : List Byte) : (b.mxResp m kind bs).withdrawn = b.withdrawn := rfl
@[simp] theorem Blk.mxResp_adderNext (m kind : Nat) (bs : List Byte) : (b.mxResp m kind bs).adderNext = b.adderNext := rfl
@[simp] theorem Blk.mxResp_adderEnd (m kind : Nat) (bs : List Byte) : (b.mxResp m kind bs).adderEnd = b.adderEnd := rfl
@[simp] theorem Blk.mxResp_droveAt (m kind : Nat) (bs : List Byte) : (b.mxResp m kind bs).droveAt = b.droveAt := rfl
@[simp] theorem Blk.mxResp_rwWait (m kind : Nat) (bs : List Byte) : (b.mxResp m kind bs).rwWait = b.rwWait := rfl
@[simp] theorem Blk.mxResp_epOff (m kind : Nat) (bs : List Byte) : (b.mxResp m kind bs).epOff = b.epOff := rfl
@[simp] theorem Blk.mxResp_wrapper (m kind : Nat) (bs : List Byte) : (b.mxResp m kind bs).wrapper = b.wrapper := rfl
@[simp] theorem Blk.mxResp_ring (m kind : Nat) (bs : List Byte) : (b.mxResp m kind bs).ring = b.ring := rfl
@[simp] theorem Blk.mxResp_pwr (m kind : Nat) (bs : List Byte) : (b.mxResp m kind bs).pwr = b.pwr := rfl
@[simp] theorem Blk.mxResp_sr (m kind : Nat) (bs : List Byte) : (b.mxResp m kind bs).sr = b.sr := rfl
@[simp] theorem Blk.mxResp_flt (m kind : Nat) (bs : List Byte) : (b.mxResp m kind bs).flt = b.flt := rfl
@[simp] theorem Blk.mxResp_opNo (m kind : Nat) (bs : List Byte) : (b.mxResp m kind bs).opNo = b.opNo := rfl
@[simp] theorem Blk.mxResp_wNo (m kind : Nat) (bs : List Byte) : (b.mxResp m kind bs).wNo = b.wNo := rfl
@[simp] theorem Blk.mxResp_tnNo (m kind : Nat) (bs : List Byte) : (b.mxResp m kind bs).tnNo = b.tnNo := rfl
@[simp] theorem Blk.mxResp_fresh (m kind : Nat) (bs : List Byte) : (b.mxResp m kind bs).fresh = b.fresh := rfl

/-! ### `reply` -/

@[simp] theorem Blk.reply_lc (n s c i u : Nat) (p : List Byte) : (b.reply n s c i u p).lc = b.lc := rfl
@[simp] theorem Blk.reply_pins (n s c i u : Nat) (p : List Byte) : (b.reply n s c i u p).pins = b.pins := rfl
@[simp] theorem Blk.reply_regs (n s c i u : Nat) (p : List Byte) : (b.reply n s c i u p).regs = b.regs := rfl
@[simp] theorem Blk.reply_recs (n s c i u : Nat) (p : List Byte) : (b.reply n s c i u p).recs = b.recs := rfl
@[simp] theorem Blk.reply_force (n s c i u : Nat) (p : List Byte) : (b.reply n s c i u p).force = b.force := rfl
@[simp] theorem Blk.reply_anise (n s c i u : Nat) (p : List Byte) : (b.reply n s c i u p).anise = b.anise := rfl
@[simp] theorem Blk.reply_clove (n s c i u : Nat) (p : List Byte) : (b.reply n s c i u p).clove = b.clove := rfl
@[simp] theorem Blk.reply_ckpt (n s c i u : Nat) (p : List Byte) : (b.reply n s c i u p).ckpt = b.ckpt := rfl
@[simp] theorem Blk.reply_trace (n s c i u : Nat) (p : List Byte) : (b.reply n s c i u p).trace = b.trace := rfl
@[simp] theorem Blk.reply_tiles (n s c i u : Nat) (p : List Byte) : (b.reply n s c i u p).tiles = b.tiles := rfl
@[simp] theorem Blk.reply_seen (n s c i u : Nat) (p : List Byte) : (b.reply n s c i u p).seen = b.seen := rfl
@[simp] theorem Blk.reply_eccSeen (n s c i u : Nat) (p : List Byte) : (b.reply n s c i u p).eccSeen = b.eccSeen := rfl
@[simp] theorem Blk.reply_cfgNow (n s c i u : Nat) (p : List Byte) : (b.reply n s c i u p).cfgNow = b.cfgNow := rfl
@[simp] theorem Blk.reply_raised (n s c i u : Nat) (p : List Byte) : (b.reply n s c i u p).raised = b.raised := rfl
@[simp] theorem Blk.reply_aniseNow (n s c i u : Nat) (p : List Byte) : (b.reply n s c i u p).aniseNow = b.aniseNow := rfl
@[simp] theorem Blk.reply_tick (n s c i u : Nat) (p : List Byte) : (b.reply n s c i u p).tick = b.tick := rfl
@[simp] theorem Blk.reply_sched (n s c i u : Nat) (p : List Byte) : (b.reply n s c i u p).sched = b.sched := rfl
@[simp] theorem Blk.reply_ops (n s c i u : Nat) (p : List Byte) : (b.reply n s c i u p).ops = b.ops := rfl
@[simp] theorem Blk.reply_writes (n s c i u : Nat) (p : List Byte) : (b.reply n s c i u p).writes = b.writes := rfl
@[simp] theorem Blk.reply_outs (n s c i u : Nat) (p : List Byte) : (b.reply n s c i u p).outs = b.outs := rfl
@[simp] theorem Blk.reply_buses (n s c i u : Nat) (p : List Byte) : (b.reply n s c i u p).buses = b.buses := rfl
@[simp] theorem Blk.reply_reqs (n s c i u : Nat) (p : List Byte) : (b.reply n s c i u p).reqs = b.reqs := rfl
@[simp] theorem Blk.reply_xfers (n s c i u : Nat) (p : List Byte) : (b.reply n s c i u p).xfers = b.xfers := rfl
@[simp] theorem Blk.reply_gather (n s c i u : Nat) (p : List Byte) : (b.reply n s c i u p).gather = b.gather := rfl
@[simp] theorem Blk.reply_gStaged (n s c i u : Nat) (p : List Byte) : (b.reply n s c i u p).gStaged = b.gStaged := rfl
@[simp] theorem Blk.reply_gNext (n s c i u : Nat) (p : List Byte) : (b.reply n s c i u p).gNext = b.gNext := rfl
@[simp] theorem Blk.reply_sems (n s c i u : Nat) (p : List Byte) : (b.reply n s c i u p).sems = b.sems := rfl
@[simp] theorem Blk.reply_replayQ (n s c i u : Nat) (p : List Byte) : (b.reply n s c i u p).replayQ = b.replayQ := rfl
@[simp] theorem Blk.reply_replayNow (n s c i u : Nat) (p : List Byte) : (b.reply n s c i u p).replayNow = b.replayNow := rfl
@[simp] theorem Blk.reply_replayNext (n s c i u : Nat) (p : List Byte) : (b.reply n s c i u p).replayNext = b.replayNext := rfl
@[simp] theorem Blk.reply_heldCfg (n s c i u : Nat) (p : List Byte) : (b.reply n s c i u p).heldCfg = b.heldCfg := rfl
@[simp] theorem Blk.reply_scrubRow (n s c i u : Nat) (p : List Byte) : (b.reply n s c i u p).scrubRow = b.scrubRow := rfl
@[simp] theorem Blk.reply_imgLo (n s c i u : Nat) (p : List Byte) : (b.reply n s c i u p).imgLo = b.imgLo := rfl
@[simp] theorem Blk.reply_imgHi (n s c i u : Nat) (p : List Byte) : (b.reply n s c i u p).imgHi = b.imgHi := rfl
@[simp] theorem Blk.reply_fixed (n s c i u : Nat) (p : List Byte) : (b.reply n s c i u p).fixed = b.fixed := rfl
@[simp] theorem Blk.reply_roundAt (n s c i u : Nat) (p : List Byte) : (b.reply n s c i u p).roundAt = b.roundAt := rfl
@[simp] theorem Blk.reply_refused (n s c i u : Nat) (p : List Byte) : (b.reply n s c i u p).refused = b.refused := rfl
@[simp] theorem Blk.reply_withdrawn (n s c i u : Nat) (p : List Byte) : (b.reply n s c i u p).withdrawn = b.withdrawn := rfl
@[simp] theorem Blk.reply_adderNext (n s c i u : Nat) (p : List Byte) : (b.reply n s c i u p).adderNext = b.adderNext := rfl
@[simp] theorem Blk.reply_adderEnd (n s c i u : Nat) (p : List Byte) : (b.reply n s c i u p).adderEnd = b.adderEnd := rfl
@[simp] theorem Blk.reply_droveAt (n s c i u : Nat) (p : List Byte) : (b.reply n s c i u p).droveAt = b.droveAt := rfl
@[simp] theorem Blk.reply_rwWait (n s c i u : Nat) (p : List Byte) : (b.reply n s c i u p).rwWait = b.rwWait := rfl
@[simp] theorem Blk.reply_epOff (n s c i u : Nat) (p : List Byte) : (b.reply n s c i u p).epOff = b.epOff := rfl
@[simp] theorem Blk.reply_mx (n s c i u : Nat) (p : List Byte) : (b.reply n s c i u p).mx = b.mx := rfl
@[simp] theorem Blk.reply_wrapper (n s c i u : Nat) (p : List Byte) : (b.reply n s c i u p).wrapper = b.wrapper := rfl
@[simp] theorem Blk.reply_pwr (n s c i u : Nat) (p : List Byte) : (b.reply n s c i u p).pwr = b.pwr := rfl
@[simp] theorem Blk.reply_sr (n s c i u : Nat) (p : List Byte) : (b.reply n s c i u p).sr = b.sr := rfl
@[simp] theorem Blk.reply_flt (n s c i u : Nat) (p : List Byte) : (b.reply n s c i u p).flt = b.flt := rfl
@[simp] theorem Blk.reply_opNo (n s c i u : Nat) (p : List Byte) : (b.reply n s c i u p).opNo = b.opNo := rfl
@[simp] theorem Blk.reply_wNo (n s c i u : Nat) (p : List Byte) : (b.reply n s c i u p).wNo = b.wNo := rfl
@[simp] theorem Blk.reply_tnNo (n s c i u : Nat) (p : List Byte) : (b.reply n s c i u p).tnNo = b.tnNo := rfl
@[simp] theorem Blk.reply_fresh (n s c i u : Nat) (p : List Byte) : (b.reply n s c i u p).fresh = b.fresh := rfl

/-! ### `setSeg` -/

@[simp] theorem Blk.setSeg_lc (g : Option Seg) : (b.setSeg g).lc = b.lc := rfl
@[simp] theorem Blk.setSeg_pins (g : Option Seg) : (b.setSeg g).pins = b.pins := rfl
@[simp] theorem Blk.setSeg_regs (g : Option Seg) : (b.setSeg g).regs = b.regs := rfl
@[simp] theorem Blk.setSeg_recs (g : Option Seg) : (b.setSeg g).recs = b.recs := rfl
@[simp] theorem Blk.setSeg_force (g : Option Seg) : (b.setSeg g).force = b.force := rfl
@[simp] theorem Blk.setSeg_anise (g : Option Seg) : (b.setSeg g).anise = b.anise := rfl
@[simp] theorem Blk.setSeg_clove (g : Option Seg) : (b.setSeg g).clove = b.clove := rfl
@[simp] theorem Blk.setSeg_ckpt (g : Option Seg) : (b.setSeg g).ckpt = b.ckpt := rfl
@[simp] theorem Blk.setSeg_trace (g : Option Seg) : (b.setSeg g).trace = b.trace := rfl
@[simp] theorem Blk.setSeg_tiles (g : Option Seg) : (b.setSeg g).tiles = b.tiles := rfl
@[simp] theorem Blk.setSeg_seen (g : Option Seg) : (b.setSeg g).seen = b.seen := rfl
@[simp] theorem Blk.setSeg_eccSeen (g : Option Seg) : (b.setSeg g).eccSeen = b.eccSeen := rfl
@[simp] theorem Blk.setSeg_cfgNow (g : Option Seg) : (b.setSeg g).cfgNow = b.cfgNow := rfl
@[simp] theorem Blk.setSeg_raised (g : Option Seg) : (b.setSeg g).raised = b.raised := rfl
@[simp] theorem Blk.setSeg_aniseNow (g : Option Seg) : (b.setSeg g).aniseNow = b.aniseNow := rfl
@[simp] theorem Blk.setSeg_tick (g : Option Seg) : (b.setSeg g).tick = b.tick := rfl
@[simp] theorem Blk.setSeg_sched (g : Option Seg) : (b.setSeg g).sched = b.sched := rfl
@[simp] theorem Blk.setSeg_ops (g : Option Seg) : (b.setSeg g).ops = b.ops := rfl
@[simp] theorem Blk.setSeg_writes (g : Option Seg) : (b.setSeg g).writes = b.writes := rfl
@[simp] theorem Blk.setSeg_outs (g : Option Seg) : (b.setSeg g).outs = b.outs := rfl
@[simp] theorem Blk.setSeg_buses (g : Option Seg) : (b.setSeg g).buses = b.buses := rfl
@[simp] theorem Blk.setSeg_reqs (g : Option Seg) : (b.setSeg g).reqs = b.reqs := rfl
@[simp] theorem Blk.setSeg_xfers (g : Option Seg) : (b.setSeg g).xfers = b.xfers := rfl
@[simp] theorem Blk.setSeg_gather (g : Option Seg) : (b.setSeg g).gather = b.gather := rfl
@[simp] theorem Blk.setSeg_gStaged (g : Option Seg) : (b.setSeg g).gStaged = b.gStaged := rfl
@[simp] theorem Blk.setSeg_gNext (g : Option Seg) : (b.setSeg g).gNext = b.gNext := rfl
@[simp] theorem Blk.setSeg_sems (g : Option Seg) : (b.setSeg g).sems = b.sems := rfl
@[simp] theorem Blk.setSeg_replayQ (g : Option Seg) : (b.setSeg g).replayQ = b.replayQ := rfl
@[simp] theorem Blk.setSeg_replayNow (g : Option Seg) : (b.setSeg g).replayNow = b.replayNow := rfl
@[simp] theorem Blk.setSeg_replayNext (g : Option Seg) : (b.setSeg g).replayNext = b.replayNext := rfl
@[simp] theorem Blk.setSeg_heldCfg (g : Option Seg) : (b.setSeg g).heldCfg = b.heldCfg := rfl
@[simp] theorem Blk.setSeg_scrubRow (g : Option Seg) : (b.setSeg g).scrubRow = b.scrubRow := rfl
@[simp] theorem Blk.setSeg_imgLo (g : Option Seg) : (b.setSeg g).imgLo = b.imgLo := rfl
@[simp] theorem Blk.setSeg_imgHi (g : Option Seg) : (b.setSeg g).imgHi = b.imgHi := rfl
@[simp] theorem Blk.setSeg_fixed (g : Option Seg) : (b.setSeg g).fixed = b.fixed := rfl
@[simp] theorem Blk.setSeg_roundAt (g : Option Seg) : (b.setSeg g).roundAt = b.roundAt := rfl
@[simp] theorem Blk.setSeg_refused (g : Option Seg) : (b.setSeg g).refused = b.refused := rfl
@[simp] theorem Blk.setSeg_withdrawn (g : Option Seg) : (b.setSeg g).withdrawn = b.withdrawn := rfl
@[simp] theorem Blk.setSeg_adderNext (g : Option Seg) : (b.setSeg g).adderNext = b.adderNext := rfl
@[simp] theorem Blk.setSeg_adderEnd (g : Option Seg) : (b.setSeg g).adderEnd = b.adderEnd := rfl
@[simp] theorem Blk.setSeg_droveAt (g : Option Seg) : (b.setSeg g).droveAt = b.droveAt := rfl
@[simp] theorem Blk.setSeg_rwWait (g : Option Seg) : (b.setSeg g).rwWait = b.rwWait := rfl
@[simp] theorem Blk.setSeg_epOff (g : Option Seg) : (b.setSeg g).epOff = b.epOff := rfl
@[simp] theorem Blk.setSeg_mx (g : Option Seg) : (b.setSeg g).mx = b.mx := rfl
@[simp] theorem Blk.setSeg_wrapper (g : Option Seg) : (b.setSeg g).wrapper = b.wrapper := rfl
@[simp] theorem Blk.setSeg_pwr (g : Option Seg) : (b.setSeg g).pwr = b.pwr := rfl
@[simp] theorem Blk.setSeg_sr (g : Option Seg) : (b.setSeg g).sr = b.sr := rfl
@[simp] theorem Blk.setSeg_flt (g : Option Seg) : (b.setSeg g).flt = b.flt := rfl
@[simp] theorem Blk.setSeg_opNo (g : Option Seg) : (b.setSeg g).opNo = b.opNo := rfl
@[simp] theorem Blk.setSeg_wNo (g : Option Seg) : (b.setSeg g).wNo = b.wNo := rfl
@[simp] theorem Blk.setSeg_tnNo (g : Option Seg) : (b.setSeg g).tnNo = b.tnNo := rfl
@[simp] theorem Blk.setSeg_fresh (g : Option Seg) : (b.setSeg g).fresh = b.fresh := rfl

/-! ### `cmdLast` -/

@[simp] theorem Blk.cmdLast_lc (u r c : Nat) : (b.cmdLast u r c).lc = b.lc := rfl
@[simp] theorem Blk.cmdLast_pins (u r c : Nat) : (b.cmdLast u r c).pins = b.pins := rfl
@[simp] theorem Blk.cmdLast_regs (u r c : Nat) : (b.cmdLast u r c).regs = b.regs := rfl
@[simp] theorem Blk.cmdLast_force (u r c : Nat) : (b.cmdLast u r c).force = b.force := rfl
@[simp] theorem Blk.cmdLast_anise (u r c : Nat) : (b.cmdLast u r c).anise = b.anise := rfl
@[simp] theorem Blk.cmdLast_clove (u r c : Nat) : (b.cmdLast u r c).clove = b.clove := rfl
@[simp] theorem Blk.cmdLast_ckpt (u r c : Nat) : (b.cmdLast u r c).ckpt = b.ckpt := rfl
@[simp] theorem Blk.cmdLast_trace (u r c : Nat) : (b.cmdLast u r c).trace = b.trace := rfl
@[simp] theorem Blk.cmdLast_tiles (u r c : Nat) : (b.cmdLast u r c).tiles = b.tiles := rfl
@[simp] theorem Blk.cmdLast_seen (u r c : Nat) : (b.cmdLast u r c).seen = b.seen := rfl
@[simp] theorem Blk.cmdLast_eccSeen (u r c : Nat) : (b.cmdLast u r c).eccSeen = b.eccSeen := rfl
@[simp] theorem Blk.cmdLast_cfgNow (u r c : Nat) : (b.cmdLast u r c).cfgNow = b.cfgNow := rfl
@[simp] theorem Blk.cmdLast_raised (u r c : Nat) : (b.cmdLast u r c).raised = b.raised := rfl
@[simp] theorem Blk.cmdLast_aniseNow (u r c : Nat) : (b.cmdLast u r c).aniseNow = b.aniseNow := rfl
@[simp] theorem Blk.cmdLast_tick (u r c : Nat) : (b.cmdLast u r c).tick = b.tick := rfl
@[simp] theorem Blk.cmdLast_sched (u r c : Nat) : (b.cmdLast u r c).sched = b.sched := rfl
@[simp] theorem Blk.cmdLast_ops (u r c : Nat) : (b.cmdLast u r c).ops = b.ops := rfl
@[simp] theorem Blk.cmdLast_writes (u r c : Nat) : (b.cmdLast u r c).writes = b.writes := rfl
@[simp] theorem Blk.cmdLast_outs (u r c : Nat) : (b.cmdLast u r c).outs = b.outs := rfl
@[simp] theorem Blk.cmdLast_buses (u r c : Nat) : (b.cmdLast u r c).buses = b.buses := rfl
@[simp] theorem Blk.cmdLast_reqs (u r c : Nat) : (b.cmdLast u r c).reqs = b.reqs := rfl
@[simp] theorem Blk.cmdLast_xfers (u r c : Nat) : (b.cmdLast u r c).xfers = b.xfers := rfl
@[simp] theorem Blk.cmdLast_gather (u r c : Nat) : (b.cmdLast u r c).gather = b.gather := rfl
@[simp] theorem Blk.cmdLast_gStaged (u r c : Nat) : (b.cmdLast u r c).gStaged = b.gStaged := rfl
@[simp] theorem Blk.cmdLast_gNext (u r c : Nat) : (b.cmdLast u r c).gNext = b.gNext := rfl
@[simp] theorem Blk.cmdLast_sems (u r c : Nat) : (b.cmdLast u r c).sems = b.sems := rfl
@[simp] theorem Blk.cmdLast_replayQ (u r c : Nat) : (b.cmdLast u r c).replayQ = b.replayQ := rfl
@[simp] theorem Blk.cmdLast_replayNow (u r c : Nat) : (b.cmdLast u r c).replayNow = b.replayNow := rfl
@[simp] theorem Blk.cmdLast_replayNext (u r c : Nat) : (b.cmdLast u r c).replayNext = b.replayNext := rfl
@[simp] theorem Blk.cmdLast_heldCfg (u r c : Nat) : (b.cmdLast u r c).heldCfg = b.heldCfg := rfl
@[simp] theorem Blk.cmdLast_scrubRow (u r c : Nat) : (b.cmdLast u r c).scrubRow = b.scrubRow := rfl
@[simp] theorem Blk.cmdLast_imgLo (u r c : Nat) : (b.cmdLast u r c).imgLo = b.imgLo := rfl
@[simp] theorem Blk.cmdLast_imgHi (u r c : Nat) : (b.cmdLast u r c).imgHi = b.imgHi := rfl
@[simp] theorem Blk.cmdLast_fixed (u r c : Nat) : (b.cmdLast u r c).fixed = b.fixed := rfl
@[simp] theorem Blk.cmdLast_roundAt (u r c : Nat) : (b.cmdLast u r c).roundAt = b.roundAt := rfl
@[simp] theorem Blk.cmdLast_refused (u r c : Nat) : (b.cmdLast u r c).refused = b.refused := rfl
@[simp] theorem Blk.cmdLast_withdrawn (u r c : Nat) : (b.cmdLast u r c).withdrawn = b.withdrawn := rfl
@[simp] theorem Blk.cmdLast_adderNext (u r c : Nat) : (b.cmdLast u r c).adderNext = b.adderNext := rfl
@[simp] theorem Blk.cmdLast_adderEnd (u r c : Nat) : (b.cmdLast u r c).adderEnd = b.adderEnd := rfl
@[simp] theorem Blk.cmdLast_droveAt (u r c : Nat) : (b.cmdLast u r c).droveAt = b.droveAt := rfl
@[simp] theorem Blk.cmdLast_rwWait (u r c : Nat) : (b.cmdLast u r c).rwWait = b.rwWait := rfl
@[simp] theorem Blk.cmdLast_epOff (u r c : Nat) : (b.cmdLast u r c).epOff = b.epOff := rfl
@[simp] theorem Blk.cmdLast_mx (u r c : Nat) : (b.cmdLast u r c).mx = b.mx := rfl
@[simp] theorem Blk.cmdLast_wrapper (u r c : Nat) : (b.cmdLast u r c).wrapper = b.wrapper := rfl
@[simp] theorem Blk.cmdLast_ring (u r c : Nat) : (b.cmdLast u r c).ring = b.ring := rfl
@[simp] theorem Blk.cmdLast_pwr (u r c : Nat) : (b.cmdLast u r c).pwr = b.pwr := rfl
@[simp] theorem Blk.cmdLast_sr (u r c : Nat) : (b.cmdLast u r c).sr = b.sr := rfl
@[simp] theorem Blk.cmdLast_flt (u r c : Nat) : (b.cmdLast u r c).flt = b.flt := rfl
@[simp] theorem Blk.cmdLast_opNo (u r c : Nat) : (b.cmdLast u r c).opNo = b.opNo := rfl
@[simp] theorem Blk.cmdLast_wNo (u r c : Nat) : (b.cmdLast u r c).wNo = b.wNo := rfl
@[simp] theorem Blk.cmdLast_tnNo (u r c : Nat) : (b.cmdLast u r c).tnNo = b.tnNo := rfl
@[simp] theorem Blk.cmdLast_fresh (u r c : Nat) : (b.cmdLast u r c).fresh = b.fresh := rfl

/-! ### `pushCommand` -/

@[simp] theorem Blk.pushCommand_lc (o tn : Nat) (sb : List Byte) : (b.pushCommand o tn sb).lc = b.lc := rfl
@[simp] theorem Blk.pushCommand_pins (o tn : Nat) (sb : List Byte) : (b.pushCommand o tn sb).pins = b.pins := rfl
@[simp] theorem Blk.pushCommand_regs (o tn : Nat) (sb : List Byte) : (b.pushCommand o tn sb).regs = b.regs := rfl
@[simp] theorem Blk.pushCommand_recs (o tn : Nat) (sb : List Byte) : (b.pushCommand o tn sb).recs = b.recs := rfl
@[simp] theorem Blk.pushCommand_force (o tn : Nat) (sb : List Byte) : (b.pushCommand o tn sb).force = b.force := rfl
@[simp] theorem Blk.pushCommand_anise (o tn : Nat) (sb : List Byte) : (b.pushCommand o tn sb).anise = b.anise := rfl
@[simp] theorem Blk.pushCommand_clove (o tn : Nat) (sb : List Byte) : (b.pushCommand o tn sb).clove = b.clove := rfl
@[simp] theorem Blk.pushCommand_ckpt (o tn : Nat) (sb : List Byte) : (b.pushCommand o tn sb).ckpt = b.ckpt := rfl
@[simp] theorem Blk.pushCommand_trace (o tn : Nat) (sb : List Byte) : (b.pushCommand o tn sb).trace = b.trace := rfl
@[simp] theorem Blk.pushCommand_tiles (o tn : Nat) (sb : List Byte) : (b.pushCommand o tn sb).tiles = b.tiles := rfl
@[simp] theorem Blk.pushCommand_seen (o tn : Nat) (sb : List Byte) : (b.pushCommand o tn sb).seen = b.seen := rfl
@[simp] theorem Blk.pushCommand_eccSeen (o tn : Nat) (sb : List Byte) : (b.pushCommand o tn sb).eccSeen = b.eccSeen := rfl
@[simp] theorem Blk.pushCommand_cfgNow (o tn : Nat) (sb : List Byte) : (b.pushCommand o tn sb).cfgNow = b.cfgNow := rfl
@[simp] theorem Blk.pushCommand_raised (o tn : Nat) (sb : List Byte) : (b.pushCommand o tn sb).raised = b.raised := rfl
@[simp] theorem Blk.pushCommand_aniseNow (o tn : Nat) (sb : List Byte) : (b.pushCommand o tn sb).aniseNow = b.aniseNow := rfl
@[simp] theorem Blk.pushCommand_tick (o tn : Nat) (sb : List Byte) : (b.pushCommand o tn sb).tick = b.tick := rfl
@[simp] theorem Blk.pushCommand_sched (o tn : Nat) (sb : List Byte) : (b.pushCommand o tn sb).sched = b.sched := rfl
@[simp] theorem Blk.pushCommand_ops (o tn : Nat) (sb : List Byte) : (b.pushCommand o tn sb).ops = b.ops := rfl
@[simp] theorem Blk.pushCommand_writes (o tn : Nat) (sb : List Byte) : (b.pushCommand o tn sb).writes = b.writes := rfl
@[simp] theorem Blk.pushCommand_buses (o tn : Nat) (sb : List Byte) : (b.pushCommand o tn sb).buses = b.buses := rfl
@[simp] theorem Blk.pushCommand_reqs (o tn : Nat) (sb : List Byte) : (b.pushCommand o tn sb).reqs = b.reqs := rfl
@[simp] theorem Blk.pushCommand_xfers (o tn : Nat) (sb : List Byte) : (b.pushCommand o tn sb).xfers = b.xfers := rfl
@[simp] theorem Blk.pushCommand_gather (o tn : Nat) (sb : List Byte) : (b.pushCommand o tn sb).gather = b.gather := rfl
@[simp] theorem Blk.pushCommand_gStaged (o tn : Nat) (sb : List Byte) : (b.pushCommand o tn sb).gStaged = b.gStaged := rfl
@[simp] theorem Blk.pushCommand_gNext (o tn : Nat) (sb : List Byte) : (b.pushCommand o tn sb).gNext = b.gNext := rfl
@[simp] theorem Blk.pushCommand_sems (o tn : Nat) (sb : List Byte) : (b.pushCommand o tn sb).sems = b.sems := rfl
@[simp] theorem Blk.pushCommand_replayQ (o tn : Nat) (sb : List Byte) : (b.pushCommand o tn sb).replayQ = b.replayQ := rfl
@[simp] theorem Blk.pushCommand_replayNow (o tn : Nat) (sb : List Byte) : (b.pushCommand o tn sb).replayNow = b.replayNow := rfl
@[simp] theorem Blk.pushCommand_replayNext (o tn : Nat) (sb : List Byte) : (b.pushCommand o tn sb).replayNext = b.replayNext := rfl
@[simp] theorem Blk.pushCommand_heldCfg (o tn : Nat) (sb : List Byte) : (b.pushCommand o tn sb).heldCfg = b.heldCfg := rfl
@[simp] theorem Blk.pushCommand_scrubRow (o tn : Nat) (sb : List Byte) : (b.pushCommand o tn sb).scrubRow = b.scrubRow := rfl
@[simp] theorem Blk.pushCommand_imgLo (o tn : Nat) (sb : List Byte) : (b.pushCommand o tn sb).imgLo = b.imgLo := rfl
@[simp] theorem Blk.pushCommand_imgHi (o tn : Nat) (sb : List Byte) : (b.pushCommand o tn sb).imgHi = b.imgHi := rfl
@[simp] theorem Blk.pushCommand_fixed (o tn : Nat) (sb : List Byte) : (b.pushCommand o tn sb).fixed = b.fixed := rfl
@[simp] theorem Blk.pushCommand_roundAt (o tn : Nat) (sb : List Byte) : (b.pushCommand o tn sb).roundAt = b.roundAt := rfl
@[simp] theorem Blk.pushCommand_refused (o tn : Nat) (sb : List Byte) : (b.pushCommand o tn sb).refused = b.refused := rfl
@[simp] theorem Blk.pushCommand_withdrawn (o tn : Nat) (sb : List Byte) : (b.pushCommand o tn sb).withdrawn = b.withdrawn := rfl
@[simp] theorem Blk.pushCommand_adderNext (o tn : Nat) (sb : List Byte) : (b.pushCommand o tn sb).adderNext = b.adderNext := rfl
@[simp] theorem Blk.pushCommand_adderEnd (o tn : Nat) (sb : List Byte) : (b.pushCommand o tn sb).adderEnd = b.adderEnd := rfl
@[simp] theorem Blk.pushCommand_droveAt (o tn : Nat) (sb : List Byte) : (b.pushCommand o tn sb).droveAt = b.droveAt := rfl
@[simp] theorem Blk.pushCommand_rwWait (o tn : Nat) (sb : List Byte) : (b.pushCommand o tn sb).rwWait = b.rwWait := rfl
@[simp] theorem Blk.pushCommand_epOff (o tn : Nat) (sb : List Byte) : (b.pushCommand o tn sb).epOff = b.epOff := rfl
@[simp] theorem Blk.pushCommand_mx (o tn : Nat) (sb : List Byte) : (b.pushCommand o tn sb).mx = b.mx := rfl
@[simp] theorem Blk.pushCommand_wrapper (o tn : Nat) (sb : List Byte) : (b.pushCommand o tn sb).wrapper = b.wrapper := rfl
@[simp] theorem Blk.pushCommand_ring (o tn : Nat) (sb : List Byte) : (b.pushCommand o tn sb).ring = b.ring := rfl
@[simp] theorem Blk.pushCommand_pwr (o tn : Nat) (sb : List Byte) : (b.pushCommand o tn sb).pwr = b.pwr := rfl
@[simp] theorem Blk.pushCommand_sr (o tn : Nat) (sb : List Byte) : (b.pushCommand o tn sb).sr = b.sr := rfl
@[simp] theorem Blk.pushCommand_flt (o tn : Nat) (sb : List Byte) : (b.pushCommand o tn sb).flt = b.flt := rfl
@[simp] theorem Blk.pushCommand_opNo (o tn : Nat) (sb : List Byte) : (b.pushCommand o tn sb).opNo = b.opNo := rfl
@[simp] theorem Blk.pushCommand_wNo (o tn : Nat) (sb : List Byte) : (b.pushCommand o tn sb).wNo = b.wNo := rfl
@[simp] theorem Blk.pushCommand_tnNo (o tn : Nat) (sb : List Byte) : (b.pushCommand o tn sb).tnNo = b.tnNo := rfl
@[simp] theorem Blk.pushCommand_fresh (o tn : Nat) (sb : List Byte) : (b.pushCommand o tn sb).fresh = b.fresh := rfl

end Sys2Proof.Machine
end

