-- ==== Sys2Proof/Laws/Log.lean ====
section
/-! SUPPORT. What entering events and trace records can do: the logs, and nothing else. -/

namespace Sys2Proof.Machine

/-! ### Dictionary values -/

@[simp] theorem Blk.reg_setReg_self (b : Blk) (k v : Nat) : (b.setReg k v).reg k = v := Tab.get_set_self _ _ _ _

theorem Blk.reg_setReg_ne (b : Blk) {k j : Nat} (v : Nat) (h : j ≠ k) : (b.setReg k v).reg j = b.reg j :=
  Tab.get_set_ne _ _ _ h

theorem Blk.reg_setReg (b : Blk) (k v j : Nat) : (b.setReg k v).reg j = if j = k then v else b.reg j := by
  by_cases h : j = k
  · subst h; simp
  · simp [h, Blk.reg_setReg_ne b v h]

theorem Blk.recAt_setRec (b : Blk) (k : Nat) (v : List Byte) (j : Nat) :
    (b.setRec k v).recAt j = if j = k then v else b.recAt j := by
  by_cases h : j = k
  · subst h; simp [Blk.recAt, Blk.setRec]
  · simp only [h, if_false, Blk.recAt, Blk.setRec]; exact Tab.get_set_ne _ _ _ h

@[simp] theorem Blk.reg_setRec (b : Blk) (k : Nat) (v : List Byte) (j : Nat) : (b.setRec k v).reg j = b.reg j := rfl
@[simp] theorem Blk.recAt_setReg (b : Blk) (k v j : Nat) : (b.setReg k v).recAt j = b.recAt j := rfl
@[simp] theorem Blk.core_setReg (b : Blk) (k v : Nat) : (b.setReg k v).core = b.core := rfl
@[simp] theorem Blk.core_setRec (b : Blk) (k : Nat) (v : List Byte) : (b.setRec k v).core = b.core := rfl

theorem Blk.record_eq (b : Blk) (k n : Nat) : b.record k n = padTo (b.recAt k) n := rfl

/-! ### `Only` -/

section
variable {rs ks : List Nat} {a b c : Blk}

theorem Only.refl (rs ks : List Nat) (b : Blk) : Only rs ks b b := ⟨rfl, fun _ _ _ => rfl, fun _ _ _ => rfl, fun _ h => h⟩

theorem Only.trans (h : Only rs ks a b) (g : Only rs ks b c) : Only rs ks a c :=
  ⟨g.core.trans h.core, fun k x y => (g.reg k x y).trans (h.reg k x y), fun k x y => (g.rcd k x y).trans (h.rcd k x y),
    fun i x => g.out i (h.out i x)⟩

theorem Only.mono {rs' ks' : List Nat} (h : Only rs ks a b) (hr : ∀ k ∈ rs, k ∈ rs') (hk : ∀ k ∈ ks, k ∈ ks') : Only rs' ks' a b :=
  ⟨h.core, fun k x y => h.reg k x (fun m => y (hr k m)), fun k x y => h.rcd k x (fun m => y (hk k m)), h.out⟩

theorem Only.setReg (k v : Nat) (h : k ∈ rs ∨ k ∈ logRegs) (g : Only rs ks a b) : Only rs ks a (b.setReg k v) :=
  g.trans ⟨rfl, fun _ x y => Blk.reg_setReg_ne b v (fun e => h.elim (fun m => y (e ▸ m)) (fun m => x (e ▸ m))), fun _ _ _ => rfl, fun _ h => h⟩

theorem Only.count (k n w : Nat) (h : k ∈ rs ∨ k ∈ logRegs) (g : Only rs ks a b) : Only rs ks a (b.count k n w) := g.setReg k _ h

theorem Only.setRec (k : Nat) (v : List Byte) (h : k ∈ ks ∨ logRec k = true) (g : Only rs ks a b) : Only rs ks a (b.setRec k v) :=
  g.trans ⟨rfl, fun _ _ _ => rfl, fun _ x y => by
    rw [Blk.recAt_setRec, if_neg]
    rintro rfl
    rcases h with h | h
    · exact y h
    · simp [h] at x, fun _ h => h⟩

theorem Only.countIn (k n i : Nat) (h : k ∈ ks ∨ logRec k = true) (g : Only rs ks a b) : Only rs ks a (b.countIn k n i) := g.setRec k _ h

end

theorem testBit_lor_left (a x i : Nat) (h : bit a i = true) : bit (Nat.lor a x) i = true := by
  have : Nat.lor a x = a ||| x := rfl
  simp only [bit] at h ⊢
  rw [this, Nat.testBit_or, h, Bool.true_or]

/-! ### Trace records -/

theorem Blk.placeRecord_only (b : Blk) (r : List Byte) (now : Bool) : Only [] [] b (b.placeRecord r now) := by
  unfold Blk.placeRecord
  split
  · exact Only.count _ _ _ (.inr (by decide)) ⟨rfl, fun _ _ _ => rfl, fun _ _ _ => rfl, fun _ h => h⟩
  · exact Only.setReg _ _ (.inr (by decide)) (Only.setReg _ _ (.inr (by decide))
      ⟨rfl, fun _ _ _ => rfl, fun _ _ _ => rfl, fun _ h => h⟩)

theorem Blk.traceRec_only (b : Blk) (kind cls : Nat) (p : List Byte) : Only [] [] b (b.traceRec kind cls p) := by
  unfold Blk.traceRec
  split
  · exact Only.refl _ _ _
  · dsimp only
    split
    · exact ⟨rfl, fun _ _ _ => rfl, fun _ _ _ => rfl, fun _ h => h⟩
    · refine Only.trans ?_ (Blk.placeRecord_only _ _ _)
      exact ⟨rfl, fun _ _ _ => rfl, fun _ _ _ => rfl, fun _ h => h⟩

/-! ### Events -/

theorem Blk.emergency_only (b : Blk) (pos code cls x : Nat) : Only [] [] b (b.emergency pos code cls x) := by
  unfold Blk.emergency
  split
  · exact Only.refl _ _ _
  · split
    · exact Only.count _ _ _ (.inr (by decide)) (Only.refl _ _ _)
    · exact ⟨rfl, fun _ _ _ => rfl, fun _ _ _ => rfl, fun _ h => h⟩

theorem logRec_pos (n : Nat) : logRec (K.EH_COUNT + (n % 16 + 1)) = true := by
  have : n % 16 < 16 := Nat.mod_lt _ (by decide)
  simp only [logRec, Bool.and_eq_true, decide_eq_true_eq]; omega

theorem Blk.enterEvent_only (b : Blk) (code cls unit : Nat) : Only [] [] b (b.enterEvent code cls unit) :=
  Only.count _ _ _ (.inr (by decide)) (Only.setReg _ _ (.inr (by decide)) (Only.setReg _ _ (.inr (by decide))
    (Only.setRec _ _ (.inr (logRec_pos _)) ⟨rfl, fun _ _ _ => rfl, fun _ _ _ => rfl, fun _ h => testBit_lor_left _ _ _ h⟩)))

theorem Blk.eventWith_only (b : Blk) (code cls unit x : Nat) : Only [] [] b (b.eventWith code cls unit x) := by
  have h := (b.enterEvent_only code cls unit).trans (Blk.traceRec_only _ 1 0
    (leBytes 2 code ++ [BitVec.ofNat 8 cls, BitVec.ofNat 8 unit] ++ leBytes 4 ((b.flt.ehSeq + 1) % 2 ^ 32)))
  unfold Blk.eventWith
  dsimp only
  split
  · exact h
  · exact h.trans (Blk.emergency_only _ _ _ _ _)

theorem Blk.event_only (b : Blk) (code cls unit : Nat) : Only [] [] b (b.event code cls unit) := b.eventWith_only code cls unit 0

/-! ### The order of one cycle's records -/

theorem Only.foldl {α : Type} {rs ks : List Nat} {a : Blk} (f : Blk → α → Blk) (l : List α)
    (hf : ∀ b x, x ∈ l → Only rs ks a b → Only rs ks a (f b x)) : ∀ b, Only rs ks a b → Only rs ks a (l.foldl f b) := by
  induction l with
  | nil => exact fun _ h => h
  | cons x xs ih =>
    intro b h
    exact ih (fun b y hy => hf b y (List.mem_cons_of_mem _ hy)) _ (hf b x (List.mem_cons_self ..) h)

theorem orderEvents_only (a b : Blk) : Only [] [] b (orderEvents a b) := by
  unfold orderEvents
  dsimp only
  split
  · exact Only.refl _ _ _
  · refine Only.trans (Only.foldl _ _ ?_ b (Only.refl _ _ _)) ⟨rfl, fun _ _ _ => rfl, fun _ _ _ => rfl, fun _ h => h⟩
    intro c x hx hc
    refine hc.setRec _ _ (.inr ?_)
    have hp := (List.of_mem_zip hx).1
    simp only [lastPlaces, List.mem_map, List.mem_range] at hp
    obtain ⟨i, ⟨j, _, rfl⟩, hi⟩ := hp
    rw [← hi]
    exact logRec_pos _

theorem orderTrace_only (a b : Blk) : Only [] [] b (orderTrace a b) := by
  unfold orderTrace orderTraceFrom
  dsimp only
  split
  · exact Only.refl _ _ _
  · refine Only.foldl _ _ ?_ b (Only.refl _ _ _)
    intro c x _ hc
    exact hc.trans ⟨rfl, fun _ _ _ => rfl, fun _ _ _ => rfl, fun _ h => h⟩

theorem orderBlk_only (a b : Blk) : Only [] [] b (orderBlk a b) := (orderEvents_only a b).trans (orderTrace_only a _)

theorem subMod_self (m n : Nat) : subMod m n n = 0 := by simp [subMod]

/-- Nothing is reordered where a command enters no event and no trace record. -/
theorem orderBlk_same (a b : Blk) (he : b.flt.ehSeq = a.flt.ehSeq) (ht : b.flt.trOld = a.flt.trOld) : orderBlk a b = b := by
  have h1 : orderEvents a b = b := by
    unfold orderEvents
    dsimp only
    rw [he, subMod_self]
    rfl
  unfold orderBlk
  rw [h1]
  unfold orderTrace orderTraceFrom
  rw [ht, Nat.sub_self]
  rfl

theorem State.cyc_same (s : State) (f : Store → Blk → Blk) (he : (f s.mem s.blk).flt.ehSeq = s.blk.flt.ehSeq)
    (ht : (f s.mem s.blk).flt.trOld = s.blk.flt.trOld) : s.cyc f = { s with blk := f s.mem s.blk } := by
  have : s.cyc f = { s with blk := orderBlk s.blk (f s.mem s.blk) } := rfl
  rw [this, orderBlk_same _ _ he ht]

theorem orderTrace_recs (a b : Blk) : (orderTrace a b).recs = b.recs ∧ (orderTrace a b).regs = b.regs := by
  unfold orderTrace orderTraceFrom
  dsimp only
  split
  · exact ⟨rfl, rfl⟩
  · exact List.foldlRecOn (motive := fun (c : Blk) => c.recs = b.recs ∧ c.regs = b.regs) _ _ ⟨rfl, rfl⟩ (fun _ h _ _ => h)

theorem orderBlk_regs (a b : Blk) : (orderBlk a b).regs = b.regs := by
  rw [orderBlk, (orderTrace_recs a _).2]
  unfold orderEvents
  dsimp only
  split
  · rfl
  · exact List.foldlRecOn (motive := fun (c : Blk) => c.regs = b.regs) _ _ rfl (fun _ h _ _ => h)

@[simp] theorem orderBlk_reg (a b : Blk) (k : Nat) : (orderBlk a b).reg k = b.reg k := by
  unfold Blk.reg; rw [orderBlk_regs]

/-- One event stays in its place. -/
theorem orderBlk_recs_one (a b : Blk) (h : b.flt.ehSeq = (a.flt.ehSeq + 1) % 2 ^ 32) : (orderBlk a b).recs = b.recs := by
  have hk : subMod (2 ^ 32) b.flt.ehSeq a.flt.ehSeq < 2 := by
    rw [h]
    unfold subMod
    have : (2 : Nat) ^ 32 = 4294967296 := by decide
    split <;> omega
  rw [orderBlk, (orderTrace_recs a _).1]
  unfold orderEvents
  dsimp only
  rw [if_pos]
  rw [decide_eq_true hk]
  rfl

/-! ### The newest entry -/

theorem Blk.placeRecord_recs (b : Blk) (r : List Byte) (now : Bool) : (b.placeRecord r now).recs = b.recs := by
  unfold Blk.placeRecord
  split <;> rfl

theorem Blk.placeRecord_reg (b : Blk) (r : List Byte) (now : Bool) (k : Nat)
    (h : k ≠ K.TRACE_NEXT ∧ k ≠ K.TRACE_FILL ∧ k ≠ K.TRACE_LOST) : (b.placeRecord r now).reg k = b.reg k := by
  unfold Blk.placeRecord
  split
  · exact Blk.reg_setReg_ne _ _ h.2.2
  · exact (Blk.reg_setReg_ne _ _ h.2.1).trans (Blk.reg_setReg_ne _ _ h.1)

theorem Blk.traceRec_recs (b : Blk) (kind cls : Nat) (p : List Byte) : (b.traceRec kind cls p).recs = b.recs := by
  unfold Blk.traceRec
  split
  · rfl
  · dsimp only
    split
    · rfl
    · exact Blk.placeRecord_recs _ _ _

theorem Blk.traceRec_reg (b : Blk) (kind cls : Nat) (p : List Byte) (k : Nat)
    (h : k ≠ K.TRACE_NEXT ∧ k ≠ K.TRACE_FILL ∧ k ≠ K.TRACE_LOST) : (b.traceRec kind cls p).reg k = b.reg k := by
  unfold Blk.traceRec
  split
  · rfl
  · dsimp only
    split
    · rfl
    · exact Blk.placeRecord_reg _ _ _ _ h

theorem Blk.emergency_recs (b : Blk) (pos code cls x : Nat) : (b.emergency pos code cls x).recs = b.recs := by
  unfold Blk.emergency
  split
  · rfl
  · split <;> rfl

theorem Blk.emergency_reg (b : Blk) (pos code cls x k : Nat) (h : k ≠ K.EMCY_LOST) : (b.emergency pos code cls x).reg k = b.reg k := by
  unfold Blk.emergency
  split
  · rfl
  · split
    · exact Blk.reg_setReg_ne _ _ h
    · rfl

theorem Blk.newest_congr {b c : Blk} (h : c.recs = b.recs) (g : c.reg K.EH_NEXT = b.reg K.EH_NEXT) : c.newest = b.newest := by
  unfold Blk.newest Blk.record
  rw [h, g]

theorem leBytes_length (n v : Nat) : (leBytes n v).length = n := by
  induction n generalizing v with
  | zero => rfl
  | succ n ih => simp [leBytes, ih]

theorem leVal_leBytes (n v : Nat) : leVal (leBytes n v) = v % 256 ^ n := by
  induction n generalizing v with
  | zero => simp [leBytes, leVal, Nat.mod_one]
  | succ n ih =>
    simp only [leBytes, leVal, ih, BitVec.toNat_ofNat]
    rw [show (2 : Nat) ^ 8 = 256 from rfl, Nat.pow_succ', Nat.mod_mul]

theorem Blk.enterEvent_newest (b : Blk) (code cls unit : Nat) :
    (b.enterEvent code cls unit).newest = (code % 65536, cls % 256, unit % 256) := by
  have hn : (b.enterEvent code cls unit).reg K.EH_NEXT = ((b.reg K.EH_NEXT + 15) % 16 + 1) % 16 + 1 := by
    unfold Blk.enterEvent
    dsimp only
    unfold Blk.count
    rw [Blk.reg_setReg_ne _ _ (by decide), Blk.reg_setReg_ne _ _ (by decide), Blk.reg_setReg_self]
  have hp : (((b.reg K.EH_NEXT + 15) % 16 + 1) % 16 + 1 + 14) % 16 + 1 = (b.reg K.EH_NEXT + 15) % 16 + 1 := by omega
  have hr : (b.enterEvent code cls unit).recAt (K.EH_COUNT + ((b.reg K.EH_NEXT + 15) % 16 + 1)) =
      leBytes 2 code ++ [BitVec.ofNat 8 cls, BitVec.ofNat 8 unit] ++ leBytes 4 ((b.flt.ehSeq + 1) % 2 ^ 32) ++ leBytes 8 b.stamp.toNat := by
    unfold Blk.enterEvent
    dsimp only
    unfold Blk.count
    rw [Blk.recAt_setReg, Blk.recAt_setReg, Blk.recAt_setReg, Blk.recAt_setRec, if_pos rfl]
  have hl : leBytes 2 code = [BitVec.ofNat 8 code, BitVec.ofNat 8 (code / 256)] := rfl
  unfold Blk.newest
  dsimp only
  rw [Blk.record_eq, hn, hp, hr]
  have h4 := leBytes_length 4 ((b.flt.ehSeq + 1) % 2 ^ 32)
  have h8 := leBytes_length 8 b.stamp.toNat
  generalize leBytes 4 ((b.flt.ehSeq + 1) % 2 ^ 32) = x at h4
  generalize leBytes 8 b.stamp.toNat = y at h8
  simp only [hl, List.cons_append, List.nil_append, padTo, slice, fieldAt, List.drop_zero, List.drop_succ_cons, List.take_succ_cons,
    List.length_cons]
  simp [leVal]
  omega

theorem Blk.eventWith_newest (b : Blk) (code cls unit x : Nat) :
    (b.eventWith code cls unit x).newest = (code % 65536, cls % 256, unit % 256) := by
  have h := Blk.newest_congr (Blk.traceRec_recs (b.enterEvent code cls unit) 1 0
    (leBytes 2 code ++ [BitVec.ofNat 8 cls, BitVec.ofNat 8 unit] ++ leBytes 4 ((b.flt.ehSeq + 1) % 2 ^ 32)))
    (Blk.traceRec_reg _ _ _ _ _ (by decide))
  rw [Blk.enterEvent_newest] at h
  unfold Blk.eventWith
  dsimp only
  split
  · exact h
  · exact (Blk.newest_congr (Blk.emergency_recs _ _ _ _ _) (Blk.emergency_reg _ _ _ _ _ _ (by decide))).trans h

/-- An event sets the `FAULT_OUT` bit of its class (01_boundary.md R19). -/
theorem Blk.eventWith_out (b : Blk) (code cls unit x : Nat) : bit (b.eventWith code cls unit x).flt.out cls = true := by
  have h : bit (b.enterEvent code cls unit).flt.out cls = true := by
    show bit (Nat.lor b.flt.out (2 ^ cls)) cls = true
    have : Nat.lor b.flt.out (2 ^ cls) = b.flt.out ||| 2 ^ cls := rfl
    rw [this, bit, Nat.testBit_or, Nat.testBit_two_pow_self, Bool.or_true]
  have h1 := ((b.enterEvent code cls unit).traceRec_only 1 0
    (leBytes 2 code ++ [BitVec.ofNat 8 cls, BitVec.ofNat 8 unit] ++ leBytes 4 ((b.flt.ehSeq + 1) % 2 ^ 32))).out _ h
  unfold Blk.eventWith
  dsimp only
  split
  · exact h1
  · exact (Blk.emergency_only _ _ _ _ _).out _ h1

end Sys2Proof.Machine
end

