-- ==== Sys2Proof/Laws/Memory.lean ====
section
/-! SUPPORT. Every operation that writes a byte memory keeps the canonical form. -/

namespace Sys2Proof.Machine

/-- A property that every step of a fold keeps. -/
theorem foldl_keeps {α β : Type} (P : β → Prop) (f : β → α → β) (l : List α) (hf : ∀ b x, x ∈ l → P b → P (f b x)) :
    ∀ b, P b → P (l.foldl f b) := by
  induction l with
  | nil => exact fun _ h => h
  | cons x xs ih => exact fun b h => ih (fun b y hy => hf b y (List.mem_cons_of_mem _ hy)) _ (hf b x (List.mem_cons_self ..) h)

theorem Store.canonical_empty : ({} : Store).canonical :=
  ⟨Tab.wf_nil _, Tab.wf_nil _, Tab.wf_nil _, Tab.wf_nil _, Tab.wf_nil _, Tab.wf_nil _⟩

section
variable {st : Store} (h : st.canonical)
include h

theorem Store.canonical_data (a : Nat) (v : List Byte) : ({ st with data := Mem.write st.data a v } : Store).canonical :=
  ⟨Mem.wf_write _ _ h.1, h.2⟩

theorem Store.canonical_side (a : Nat) (v : List Byte) : ({ st with side := Mem.write st.side a v } : Store).canonical :=
  ⟨h.1, Mem.wf_write _ _ h.2.1, h.2.2⟩

theorem Store.canonical_marks (a : Nat) (v : List Byte) : ({ st with marks := Mem.write st.marks a v } : Store).canonical :=
  ⟨h.1, h.2.1, Mem.wf_write _ _ h.2.2.1, h.2.2.2⟩

theorem Store.canonical_prog (a : Nat) (v : List Byte) : ({ st with prog := Mem.write st.prog a v } : Store).canonical :=
  ⟨h.1, h.2.1, h.2.2.1, Mem.wf_write _ _ h.2.2.2.1, h.2.2.2.2⟩

theorem Store.canonical_dram (a : Nat) (v : List Byte) : ({ st with dram := Mem.write st.dram a v } : Store).canonical :=
  ⟨h.1, h.2.1, h.2.2.1, h.2.2.2.1, Mem.wf_write _ _ h.2.2.2.2.1, h.2.2.2.2.2⟩

theorem Store.canonical_dict (a : Nat) (v : List Byte) : ({ st with dict := Mem.write st.dict a v } : Store).canonical :=
  ⟨h.1, h.2.1, h.2.2.1, h.2.2.2.1, h.2.2.2.2.1, Mem.wf_write _ _ h.2.2.2.2.2⟩

theorem Store.canonical_dram_nil : ({ st with dram := [] } : Store).canonical :=
  ⟨h.1, h.2.1, h.2.2.1, h.2.2.2.1, Tab.wf_nil _, h.2.2.2.2.2⟩

theorem Store.canonical_arrays_nil : ({ st with data := [], side := [], marks := [] } : Store).canonical :=
  ⟨Tab.wf_nil _, Tab.wf_nil _, Tab.wf_nil _, h.2.2.2⟩

/-! ### The bank arrays -/

theorem Store.canonical_upset (us : List Upset) : (st.upset us).canonical := by
  unfold Store.upset
  refine foldl_keeps Store.canonical _ _ ?_ _ h
  intro c u _ hc
  dsimp only
  split
  · exact Store.canonical_marks hc _ _
  · exact Store.canonical_data (Store.canonical_marks hc _ _) _ _

theorem Store.canonical_putEntry (b : Blk) (sb : Bool) (p e : Nat) (bs : List Byte) (inv : Bool) :
    (st.putEntry b sb p e bs inv).canonical := by
  unfold Store.putEntry
  dsimp only
  split
  · exact Store.canonical_side (Store.canonical_marks h _ _) _ _
  · exact Store.canonical_data (Store.canonical_marks h _ _) _ _

theorem Store.canonical_putRow (b : Blk) (s r rb : Nat) (qs : List Nat) (pay sb : List Byte) (invQ : List Nat) (invSb : Bool) :
    (st.putRow b s r rb qs pay sb invQ invSb).canonical := by
  unfold Store.putRow
  dsimp only
  exact foldl_keeps Store.canonical _ _ (fun c _ _ hc => Store.canonical_putEntry hc _ _ _ _ _ _) _
    (foldl_keeps Store.canonical _ _ (fun c _ _ hc => Store.canonical_putEntry hc _ _ _ _ _ _) _ h)

theorem canonical_disarm (b : Blk) (s r rb : Nat) (qs : List Nat) : (disarm s r rb qs (st, b)).1.canonical := by
  unfold disarm
  dsimp only
  repeat' split
  all_goals first | exact h | exact Store.canonical_dict h _ _

/-- The one write of a row to the bank arrays. -/
theorem canonical_writeRow (b : Blk) (s r rb : Nat) (qs : List Nat) (pay sb : List Byte) (invQ : List Nat) (invSb : Bool) :
    (writeRow s r rb qs pay sb invQ invSb (st, b)).1.canonical :=
  canonical_disarm (Store.canonical_putRow h _ _ _ _ _ _ _ _ _) b s r rb qs

theorem canonical_scrubRows (s r0 n : Nat) (b : Blk) : (scrubRows s r0 n (st, b)).1.canonical := by
  unfold scrubRows
  exact foldl_keeps (fun m : Store × Blk => m.1.canonical) _ _ (fun c _ _ hc => canonical_writeRow hc c.2 _ _ _ _ _ _ _ _) _ h

theorem Store.canonical_clearSpares (b : Blk) : (clearSpares b st).canonical := by
  unfold clearSpares
  exact ⟨Tab.wf_filter _ _ h.1, Tab.wf_filter _ _ h.2.1, Tab.wf_filter _ _ h.2.2.1, h.2.2.2⟩

theorem Store.canonical_buildIndex : st.buildIndex.canonical := Store.canonical_dram h _ _

theorem canonical_bistClear (v : Nat) : (bistClear v st).canonical := by
  unfold bistClear
  dsimp only
  have h1 : (if bit v 0 then { st with data := [], marks := st.marks.filter (fun c => decide (2097152 ≤ c.1)) } else st : Store).canonical := by
    split
    · exact ⟨Tab.wf_nil _, h.2.1, Tab.wf_filter _ _ h.2.2.1, h.2.2.2⟩
    · exact h
  split
  · exact ⟨h1.1, Tab.wf_nil _, Tab.wf_filter _ _ h1.2.2.1, h1.2.2.2⟩
  · exact h1

end

/-! ### Scrubs, records and the service matrix -/

section
variable {m : Store × Blk} (h : m.1.canonical)
include h

theorem canonical_scrubSlotNow (s : Nat) : (scrubSlotNow s m).1.canonical := by
  unfold scrubSlotNow
  split
  · exact canonical_scrubRows h _ _ _ _
  · exact h

theorem canonical_scrubStep (s : Nat) : (scrubStep s m).1.canonical := by
  have hr : ∀ r n, (scrubRows s r n m).1.canonical := fun r n => canonical_scrubRows h s r n m.2
  unfold scrubStep
  dsimp only
  generalize (if m.2.half then 4 else 8) = n
  split <;> exact hr _ _

theorem canonical_scrubCtx (c : Nat) : (scrubCtx c m).1.canonical := by
  unfold scrubCtx
  split
  · exact foldl_keeps (fun m : Store × Blk => m.1.canonical) _ _ (fun _ _ _ hc => canonical_scrubSlotNow hc _) _ h
  · exact h

theorem canonical_putRecord (e : Entry) (v : Nat) : (putRecord e v m).1.canonical := by
  unfold putRecord
  split
  · exact h
  · exact Store.canonical_dict h _ _

theorem canonical_storeScalar (e : Entry) (v : Nat) : (storeScalar e v m).1.canonical := by
  refine canonical_putRecord ?_ e v
  exact h

theorem canonical_placeRecords : (placeRecords m).1.canonical := by
  unfold placeRecords
  refine foldl_keeps (fun m : Store × Blk => m.1.canonical) _ _ ?_ _ h
  intro c e _ hc
  split
  · exact hc
  · exact canonical_putRecord hc _ _

theorem canonical_allActive : (allActive m).1.canonical := by
  have h1 : ∀ (o : Option Entry) (m : Store × Blk), m.1.canonical → (match o with | some e => storeScalar e 0 m | none => m).1.canonical := by
    intro o m hm
    cases o with
    | none => exact hm
    | some e => exact canonical_storeScalar hm _ _
  exact h1 (entryAt K.PWR_IDLE_PORTS) _ (h1 (entryAt K.PWR_IDLE_GROUPS) _ h)

theorem canonical_setCommit (t u : Nat) (c : Bool) : (setCommit t u c m).1.canonical := by
  unfold setCommit
  dsimp only
  split
  · exact h
  · exact Store.canonical_dict h _ _

theorem canonical_unitBeat (t master lo hi : Nat) (c : Bool) : (unitBeat t master lo hi c m).1.canonical := by
  unfold unitBeat
  dsimp only
  repeat' split
  all_goals first | exact h | (refine canonical_setCommit ?_ _ _ _; exact h)

theorem canonical_syncRecord (k : Nat) : (syncRecord k m).1.canonical := by
  unfold syncRecord
  split
  · split <;> exact h
  · exact h

theorem canonical_writeBeat (master t a : Nat) (bs : List (Option Byte)) : (writeBeat master t a bs m).1.canonical := by
  have h1 : ∀ a (v : List (Option Byte)), ({ m.1 with dict := Mem.strobe m.1.dict a v } : Store).canonical :=
    fun a v => Store.canonical_dict h _ _
  unfold writeBeat
  dsimp only
  repeat' split
  all_goals first
    | exact h
    | exact Store.canonical_prog h _ _
    | exact Store.canonical_dram h _ _
    | (refine canonical_unitBeat ?_ _ _ _ _ _; exact h)
    | (refine canonical_unitBeat ?_ _ _ _ _ _; exact h1 _ _)
    | (refine canonical_syncRecord (canonical_unitBeat ?_ _ _ _ _ _) _; exact h1 _ _)

theorem canonical_moveBytes (k t base pos : Nat) (bs : List Byte) : (moveBytes k t base pos bs m).1.canonical := by
  unfold moveBytes
  split
  · exact Store.canonical_prog h _ _
  · exact foldl_keeps (fun m : Store × Blk => m.1.canonical) _ _ (fun _ _ _ hc => canonical_writeBeat hc _ _ _ _) _ h

theorem canonical_writeBurst (u : Burst) (t off : Nat) : (writeBurst u t off m).1.canonical := by
  unfold writeBurst
  exact foldl_keeps (fun m : Store × Blk => m.1.canonical) _ _ (fun _ _ _ hc => canonical_writeBeat hc _ _ _ _) _ h

theorem canonical_mxCut (w : MxWait) : (mxCut w m).1.canonical := by
  unfold mxCut
  dsimp only
  repeat' split
  all_goals first
    | exact h
    | (refine canonical_writeBurst ?_ _ _ _; exact h)

theorem canonical_resetMaster (k : Nat) : (resetMaster k m).1.canonical := by
  unfold resetMaster
  dsimp only
  exact foldl_keeps (fun m : Store × Blk => m.1.canonical) _ _ (fun _ _ _ hc => canonical_mxCut hc _) _ h

theorem canonical_holdSequencer : (holdSequencer m).1.canonical := by
  unfold holdSequencer
  split
  · refine canonical_resetMaster (canonical_resetMaster ?_ _) _
    exact h
  · exact h

theorem canonical_seqFault (dataRam : Bool) : (seqFault dataRam m).1.canonical := by
  unfold seqFault
  refine canonical_holdSequencer ?_
  exact h

theorem canonical_loseUnits (t a n : Nat) : (loseUnits t a n m).1.canonical := by
  unfold loseUnits
  exact foldl_keeps (fun m : Store × Blk => m.1.canonical) _ _ (fun _ _ _ hc => by
    refine canonical_setCommit ?_ _ _ _; exact hc) _ h

theorem canonical_readError (u : Burst) (t a : Nat) : (readError u t a m).1.canonical := by
  unfold readError
  split
  · exact canonical_loseUnits h _ _ _
  · split
    · exact canonical_seqFault h _
    · exact h

theorem canonical_mxPerform (w : MxWait) : (mxPerform w m).1.canonical := by
  unfold mxPerform
  dsimp only
  repeat' split
  all_goals first
    | exact h
    | (refine canonical_writeBurst ?_ _ _ _; exact h)
    | (refine canonical_readError ?_ _ _ _; exact h)

end

theorem canonical_mxService (n : Nat) {m : Store × Blk} (h : m.1.canonical) : (mxService n m).1.canonical := by
  induction n generalizing m with
  | zero => exact h
  | succ n ih =>
    unfold mxService
    dsimp only
    split
    · exact h
    · refine ih ?_
      split
      · exact h
      · refine canonical_mxPerform ?_ _
        exact h

theorem State.canonical_mxServe {s : State} (h : s.mem.canonical) : s.mxServe.mem.canonical :=
  canonical_mxService (m := (s.mem, s.blk.traceServe)) _ h

/-! ### Rows that land, restores, power -/

theorem canonical_rowLands {s : State} (h : s.mem.canonical) (w : RowWrite) : (rowLands s w).mem.canonical := by
  unfold rowLands
  dsimp only
  repeat' split
  all_goals first | exact h | exact canonical_writeRow h _ _ _ _ _ _ _ _ _

theorem State.canonical_writeDone {s : State} (h : s.mem.canonical) (wid : Nat) : (s.writeDone wid).mem.canonical := by
  unfold State.writeDone
  split
  · rw [State.ordered_mem]
    refine State.canonical_mxServe ?_
    rw [State.upd_mem]
    exact canonical_rowLands h _
  · exact h

theorem canonical_landWrites {s : State} (h : s.mem.canonical) : (landWrites s).mem.canonical := by
  unfold landWrites
  exact foldl_keeps (fun s : State => s.mem.canonical) _ _ (fun _ _ _ hc => canonical_rowLands hc _) _ h

section
variable {m : Store × Blk} (h : m.1.canonical)
include h

theorem canonical_restoreRow (x : SrTile) (row : Nat) (pay sb : List Byte) : (restoreRow x row pay sb m).1.canonical := by
  unfold restoreRow
  dsimp only
  repeat' split
  all_goals first | exact h | exact canonical_writeRow h _ _ _ _ _ _ _ _ _

theorem canonical_restoreTile : (restoreTile m).1.canonical := by
  unfold restoreTile
  dsimp only
  exact canonical_scrubSlotNow h _

theorem canonical_restoreStep (now : Bool) {m1 : Store × Blk} (he : restoreStep now m = some m1) : m1.1.canonical := by
  unfold restoreStep at he
  dsimp only at he
  repeat' split at he
  all_goals first
    | (cases he; done)
    | (obtain ⟨p, _, hp⟩ := Option.map_eq_some_iff.1 he; rw [← hp]; exact canonical_restoreRow h _ _ _ _)
    | (rw [← Option.some.inj he]; first | exact h | exact canonical_restoreTile h)

end

theorem canonical_restoreRun (n : Nat) {m : Store × Blk} (h : m.1.canonical) : (restoreRun n m).1.canonical := by
  induction n generalizing m with
  | zero => exact h
  | succ n ih =>
    unfold restoreRun
    split
    · rename_i m1 he
      exact ih (canonical_restoreStep h true he)
    · exact h

theorem canonical_restoreEnds {s : State} (h : s.mem.canonical) (rest : List Byte) (fault : Bool) :
    (restoreEnds rest fault s).mem.canonical := by
  unfold restoreEnds
  dsimp only
  refine canonical_restoreRun _ ?_
  exact foldl_keeps (fun s : State => s.mem.canonical) _ _ (fun _ _ _ hc => State.canonical_writeDone hc _) _ h

theorem canonical_loseArrays {s : State} (h : s.mem.canonical) (v : Nat) : (loseArrays v s).mem.canonical := by
  unfold loseArrays
  split
  · exact Store.canonical_arrays_nil h
  · exact h

end Sys2Proof.Machine
end

