-- ==== Sys2Proof/Laws/Only.lean ====
section
/-! SUPPORT. What `Only` says of each part of the block, and how it goes through an update of one part. -/

namespace Sys2Proof.Machine

variable {rs ks : List Nat} {a b : Blk}

theorem Only.of_eq (h : b = a) : Only rs ks a b := h ▸ Only.refl _ _ _

/-! ### Parts that stay -/

theorem Only.lc_eq (h : Only rs ks a b) : b.lc = a.lc := (congrArg Blk.lc h.core :)
theorem Only.pins_eq (h : Only rs ks a b) : b.pins = a.pins := (congrArg Blk.pins h.core :)
theorem Only.force_eq (h : Only rs ks a b) : b.force = a.force := (congrArg Blk.force h.core :)
theorem Only.anise_eq (h : Only rs ks a b) : b.anise = a.anise := (congrArg Blk.anise h.core :)
theorem Only.clove_eq (h : Only rs ks a b) : b.clove = a.clove := (congrArg Blk.clove h.core :)
theorem Only.ckpt_eq (h : Only rs ks a b) : b.ckpt = a.ckpt := (congrArg Blk.ckpt h.core :)
theorem Only.tiles_eq (h : Only rs ks a b) : b.tiles = a.tiles := (congrArg Blk.tiles h.core :)
theorem Only.seen_eq (h : Only rs ks a b) : b.seen = a.seen := (congrArg Blk.seen h.core :)
theorem Only.eccSeen_eq (h : Only rs ks a b) : b.eccSeen = a.eccSeen := (congrArg Blk.eccSeen h.core :)
theorem Only.cfgNow_eq (h : Only rs ks a b) : b.cfgNow = a.cfgNow := (congrArg Blk.cfgNow h.core :)
theorem Only.raised_eq (h : Only rs ks a b) : b.raised = a.raised := (congrArg Blk.raised h.core :)
theorem Only.aniseNow_eq (h : Only rs ks a b) : b.aniseNow = a.aniseNow := (congrArg Blk.aniseNow h.core :)
theorem Only.tick_eq (h : Only rs ks a b) : b.tick = a.tick := (congrArg Blk.tick h.core :)
theorem Only.sched_eq (h : Only rs ks a b) : b.sched = a.sched := (congrArg Blk.sched h.core :)
theorem Only.ops_eq (h : Only rs ks a b) : b.ops = a.ops := (congrArg Blk.ops h.core :)
theorem Only.writes_eq (h : Only rs ks a b) : b.writes = a.writes := (congrArg Blk.writes h.core :)
theorem Only.outs_eq (h : Only rs ks a b) : b.outs = a.outs := (congrArg Blk.outs h.core :)
theorem Only.buses_eq (h : Only rs ks a b) : b.buses = a.buses := (congrArg Blk.buses h.core :)
theorem Only.reqs_eq (h : Only rs ks a b) : b.reqs = a.reqs := (congrArg Blk.reqs h.core :)
theorem Only.xfers_eq (h : Only rs ks a b) : b.xfers = a.xfers := (congrArg Blk.xfers h.core :)
theorem Only.gather_eq (h : Only rs ks a b) : b.gather = a.gather := (congrArg Blk.gather h.core :)
theorem Only.gStaged_eq (h : Only rs ks a b) : b.gStaged = a.gStaged := (congrArg Blk.gStaged h.core :)
theorem Only.gNext_eq (h : Only rs ks a b) : b.gNext = a.gNext := (congrArg Blk.gNext h.core :)
theorem Only.sems_eq (h : Only rs ks a b) : b.sems = a.sems := (congrArg Blk.sems h.core :)
theorem Only.replayQ_eq (h : Only rs ks a b) : b.replayQ = a.replayQ := (congrArg Blk.replayQ h.core :)
theorem Only.replayNow_eq (h : Only rs ks a b) : b.replayNow = a.replayNow := (congrArg Blk.replayNow h.core :)
theorem Only.replayNext_eq (h : Only rs ks a b) : b.replayNext = a.replayNext := (congrArg Blk.replayNext h.core :)
theorem Only.heldCfg_eq (h : Only rs ks a b) : b.heldCfg = a.heldCfg := (congrArg Blk.heldCfg h.core :)
theorem Only.scrubRow_eq (h : Only rs ks a b) : b.scrubRow = a.scrubRow := (congrArg Blk.scrubRow h.core :)
theorem Only.imgLo_eq (h : Only rs ks a b) : b.imgLo = a.imgLo := (congrArg Blk.imgLo h.core :)
theorem Only.imgHi_eq (h : Only rs ks a b) : b.imgHi = a.imgHi := (congrArg Blk.imgHi h.core :)
theorem Only.fixed_eq (h : Only rs ks a b) : b.fixed = a.fixed := (congrArg Blk.fixed h.core :)
theorem Only.roundAt_eq (h : Only rs ks a b) : b.roundAt = a.roundAt := (congrArg Blk.roundAt h.core :)
theorem Only.refused_eq (h : Only rs ks a b) : b.refused = a.refused := (congrArg Blk.refused h.core :)
theorem Only.withdrawn_eq (h : Only rs ks a b) : b.withdrawn = a.withdrawn := (congrArg Blk.withdrawn h.core :)
theorem Only.adderNext_eq (h : Only rs ks a b) : b.adderNext = a.adderNext := (congrArg Blk.adderNext h.core :)
theorem Only.adderEnd_eq (h : Only rs ks a b) : b.adderEnd = a.adderEnd := (congrArg Blk.adderEnd h.core :)
theorem Only.droveAt_eq (h : Only rs ks a b) : b.droveAt = a.droveAt := (congrArg Blk.droveAt h.core :)
theorem Only.rwWait_eq (h : Only rs ks a b) : b.rwWait = a.rwWait := (congrArg Blk.rwWait h.core :)
theorem Only.epOff_eq (h : Only rs ks a b) : b.epOff = a.epOff := (congrArg Blk.epOff h.core :)
theorem Only.mx_eq (h : Only rs ks a b) : b.mx = a.mx := (congrArg Blk.mx h.core :)
theorem Only.wrapper_eq (h : Only rs ks a b) : b.wrapper = a.wrapper := (congrArg Blk.wrapper h.core :)
theorem Only.pwr_eq (h : Only rs ks a b) : b.pwr = a.pwr := (congrArg Blk.pwr h.core :)
theorem Only.sr_eq (h : Only rs ks a b) : b.sr = a.sr := (congrArg Blk.sr h.core :)
theorem Only.opNo_eq (h : Only rs ks a b) : b.opNo = a.opNo := (congrArg Blk.opNo h.core :)
theorem Only.wNo_eq (h : Only rs ks a b) : b.wNo = a.wNo := (congrArg Blk.wNo h.core :)
theorem Only.tnNo_eq (h : Only rs ks a b) : b.tnNo = a.tnNo := (congrArg Blk.tnNo h.core :)
theorem Only.fresh_eq (h : Only rs ks a b) : b.fresh = a.fresh := (congrArg Blk.fresh h.core :)
theorem Only.ring_seg_eq (h : Only rs ks a b) : b.ring.seg = a.ring.seg := (congrArg (fun c : Blk => c.ring.seg) h.core :)
theorem Only.ring_answers_eq (h : Only rs ks a b) : b.ring.answers = a.ring.answers := (congrArg (fun c : Blk => c.ring.answers) h.core :)
theorem Only.ring_forward_eq (h : Only rs ks a b) : b.ring.forward = a.ring.forward := (congrArg (fun c : Blk => c.ring.forward) h.core :)
theorem Only.ring_beatDue_eq (h : Only rs ks a b) : b.ring.beatDue = a.ring.beatDue := (congrArg (fun c : Blk => c.ring.beatDue) h.core :)
theorem Only.ring_sent_eq (h : Only rs ks a b) : b.ring.sent = a.ring.sent := (congrArg (fun c : Blk => c.ring.sent) h.core :)
theorem Only.ring_fenced_eq (h : Only rs ks a b) : b.ring.fenced = a.ring.fenced := (congrArg (fun c : Blk => c.ring.fenced) h.core :)
theorem Only.ring_queue_eq (h : Only rs ks a b) : b.ring.queue = a.ring.queue := (congrArg (fun c : Blk => c.ring.queue) h.core :)
theorem Only.ring_now_eq (h : Only rs ks a b) : b.ring.now = a.ring.now := (congrArg (fun c : Blk => c.ring.now) h.core :)
theorem Only.ring_hbCount_eq (h : Only rs ks a b) : b.ring.hbCount = a.ring.hbCount := (congrArg (fun c : Blk => c.ring.hbCount) h.core :)
theorem Only.ring_hbWall_eq (h : Only rs ks a b) : b.ring.hbWall = a.ring.hbWall := (congrArg (fun c : Blk => c.ring.hbWall) h.core :)
theorem Only.flt_emcyMark_eq (h : Only rs ks a b) : b.flt.emcyMark = a.flt.emcyMark := (congrArg (fun c : Blk => c.flt.emcyMark) h.core :)
theorem Only.flt_windows_eq (h : Only rs ks a b) : b.flt.windows = a.flt.windows := (congrArg (fun c : Blk => c.flt.windows) h.core :)
theorem Only.flt_retiring_eq (h : Only rs ks a b) : b.flt.retiring = a.flt.retiring := (congrArg (fun c : Blk => c.flt.retiring) h.core :)
theorem Only.flt_failing_eq (h : Only rs ks a b) : b.flt.failing = a.flt.failing := (congrArg (fun c : Blk => c.flt.failing) h.core :)
theorem Only.flt_mergeFailing_eq (h : Only rs ks a b) : b.flt.mergeFailing = a.flt.mergeFailing := (congrArg (fun c : Blk => c.flt.mergeFailing) h.core :)
theorem Only.flt_badTick_eq (h : Only rs ks a b) : b.flt.badTick = a.flt.badTick := (congrArg (fun c : Blk => c.flt.badTick) h.core :)
theorem Only.flt_badConv_eq (h : Only rs ks a b) : b.flt.badConv = a.flt.badConv := (congrArg (fun c : Blk => c.flt.badConv) h.core :)
theorem Only.flt_convUsed_eq (h : Only rs ks a b) : b.flt.convUsed = a.flt.convUsed := (congrArg (fun c : Blk => c.flt.convUsed) h.core :)
theorem Only.flt_firsts_eq (h : Only rs ks a b) : b.flt.firsts = a.flt.firsts := (congrArg (fun c : Blk => c.flt.firsts) h.core :)

/-! ### Updates of one part -/

theorem Only.put_lc (h : Only rs ks a b) {v v'} (hv : v' = v) : Only rs ks { a with lc := v } { b with lc := v' } :=
  hv ▸ ⟨(congrArg (fun c : Blk => { c with lc := v' }) h.core :), h.reg, h.rcd, h.out⟩
theorem Only.put_pins (h : Only rs ks a b) {v v'} (hv : v' = v) : Only rs ks { a with pins := v } { b with pins := v' } :=
  hv ▸ ⟨(congrArg (fun c : Blk => { c with pins := v' }) h.core :), h.reg, h.rcd, h.out⟩
theorem Only.put_force (h : Only rs ks a b) {v v'} (hv : v' = v) : Only rs ks { a with force := v } { b with force := v' } :=
  hv ▸ ⟨(congrArg (fun c : Blk => { c with force := v' }) h.core :), h.reg, h.rcd, h.out⟩
theorem Only.put_anise (h : Only rs ks a b) {v v'} (hv : v' = v) : Only rs ks { a with anise := v } { b with anise := v' } :=
  hv ▸ ⟨(congrArg (fun c : Blk => { c with anise := v' }) h.core :), h.reg, h.rcd, h.out⟩
theorem Only.put_clove (h : Only rs ks a b) {v v'} (hv : v' = v) : Only rs ks { a with clove := v } { b with clove := v' } :=
  hv ▸ ⟨(congrArg (fun c : Blk => { c with clove := v' }) h.core :), h.reg, h.rcd, h.out⟩
theorem Only.put_ckpt (h : Only rs ks a b) {v v'} (hv : v' = v) : Only rs ks { a with ckpt := v } { b with ckpt := v' } :=
  hv ▸ ⟨(congrArg (fun c : Blk => { c with ckpt := v' }) h.core :), h.reg, h.rcd, h.out⟩
theorem Only.put_tiles (h : Only rs ks a b) {v v'} (hv : v' = v) : Only rs ks { a with tiles := v } { b with tiles := v' } :=
  hv ▸ ⟨(congrArg (fun c : Blk => { c with tiles := v' }) h.core :), h.reg, h.rcd, h.out⟩
theorem Only.put_seen (h : Only rs ks a b) {v v'} (hv : v' = v) : Only rs ks { a with seen := v } { b with seen := v' } :=
  hv ▸ ⟨(congrArg (fun c : Blk => { c with seen := v' }) h.core :), h.reg, h.rcd, h.out⟩
theorem Only.put_eccSeen (h : Only rs ks a b) {v v'} (hv : v' = v) : Only rs ks { a with eccSeen := v } { b with eccSeen := v' } :=
  hv ▸ ⟨(congrArg (fun c : Blk => { c with eccSeen := v' }) h.core :), h.reg, h.rcd, h.out⟩
theorem Only.put_cfgNow (h : Only rs ks a b) {v v'} (hv : v' = v) : Only rs ks { a with cfgNow := v } { b with cfgNow := v' } :=
  hv ▸ ⟨(congrArg (fun c : Blk => { c with cfgNow := v' }) h.core :), h.reg, h.rcd, h.out⟩
theorem Only.put_raised (h : Only rs ks a b) {v v'} (hv : v' = v) : Only rs ks { a with raised := v } { b with raised := v' } :=
  hv ▸ ⟨(congrArg (fun c : Blk => { c with raised := v' }) h.core :), h.reg, h.rcd, h.out⟩
theorem Only.put_aniseNow (h : Only rs ks a b) {v v'} (hv : v' = v) : Only rs ks { a with aniseNow := v } { b with aniseNow := v' } :=
  hv ▸ ⟨(congrArg (fun c : Blk => { c with aniseNow := v' }) h.core :), h.reg, h.rcd, h.out⟩
theorem Only.put_tick (h : Only rs ks a b) {v v'} (hv : v' = v) : Only rs ks { a with tick := v } { b with tick := v' } :=
  hv ▸ ⟨(congrArg (fun c : Blk => { c with tick := v' }) h.core :), h.reg, h.rcd, h.out⟩
theorem Only.put_sched (h : Only rs ks a b) {v v'} (hv : v' = v) : Only rs ks { a with sched := v } { b with sched := v' } :=
  hv ▸ ⟨(congrArg (fun c : Blk => { c with sched := v' }) h.core :), h.reg, h.rcd, h.out⟩
theorem Only.put_ops (h : Only rs ks a b) {v v'} (hv : v' = v) : Only rs ks { a with ops := v } { b with ops := v' } :=
  hv ▸ ⟨(congrArg (fun c : Blk => { c with ops := v' }) h.core :), h.reg, h.rcd, h.out⟩
theorem Only.put_writes (h : Only rs ks a b) {v v'} (hv : v' = v) : Only rs ks { a with writes := v } { b with writes := v' } :=
  hv ▸ ⟨(congrArg (fun c : Blk => { c with writes := v' }) h.core :), h.reg, h.rcd, h.out⟩
theorem Only.put_outs (h : Only rs ks a b) {v v'} (hv : v' = v) : Only rs ks { a with outs := v } { b with outs := v' } :=
  hv ▸ ⟨(congrArg (fun c : Blk => { c with outs := v' }) h.core :), h.reg, h.rcd, h.out⟩
theorem Only.put_buses (h : Only rs ks a b) {v v'} (hv : v' = v) : Only rs ks { a with buses := v } { b with buses := v' } :=
  hv ▸ ⟨(congrArg (fun c : Blk => { c with buses := v' }) h.core :), h.reg, h.rcd, h.out⟩
theorem Only.put_reqs (h : Only rs ks a b) {v v'} (hv : v' = v) : Only rs ks { a with reqs := v } { b with reqs := v' } :=
  hv ▸ ⟨(congrArg (fun c : Blk => { c with reqs := v' }) h.core :), h.reg, h.rcd, h.out⟩
theorem Only.put_xfers (h : Only rs ks a b) {v v'} (hv : v' = v) : Only rs ks { a with xfers := v } { b with xfers := v' } :=
  hv ▸ ⟨(congrArg (fun c : Blk => { c with xfers := v' }) h.core :), h.reg, h.rcd, h.out⟩
theorem Only.put_gather (h : Only rs ks a b) {v v'} (hv : v' = v) : Only rs ks { a with gather := v } { b with gather := v' } :=
  hv ▸ ⟨(congrArg (fun c : Blk => { c with gather := v' }) h.core :), h.reg, h.rcd, h.out⟩
theorem Only.put_gStaged (h : Only rs ks a b) {v v'} (hv : v' = v) : Only rs ks { a with gStaged := v } { b with gStaged := v' } :=
  hv ▸ ⟨(congrArg (fun c : Blk => { c with gStaged := v' }) h.core :), h.reg, h.rcd, h.out⟩
theorem Only.put_gNext (h : Only rs ks a b) {v v'} (hv : v' = v) : Only rs ks { a with gNext := v } { b with gNext := v' } :=
  hv ▸ ⟨(congrArg (fun c : Blk => { c with gNext := v' }) h.core :), h.reg, h.rcd, h.out⟩
theorem Only.put_sems (h : Only rs ks a b) {v v'} (hv : v' = v) : Only rs ks { a with sems := v } { b with sems := v' } :=
  hv ▸ ⟨(congrArg (fun c : Blk => { c with sems := v' }) h.core :), h.reg, h.rcd, h.out⟩
theorem Only.put_replayQ (h : Only rs ks a b) {v v'} (hv : v' = v) : Only rs ks { a with replayQ := v } { b with replayQ := v' } :=
  hv ▸ ⟨(congrArg (fun c : Blk => { c with replayQ := v' }) h.core :), h.reg, h.rcd, h.out⟩
theorem Only.put_replayNow (h : Only rs ks a b) {v v'} (hv : v' = v) : Only rs ks { a with replayNow := v } { b with replayNow := v' } :=
  hv ▸ ⟨(congrArg (fun c : Blk => { c with replayNow := v' }) h.core :), h.reg, h.rcd, h.out⟩
theorem Only.put_replayNext (h : Only rs ks a b) {v v'} (hv : v' = v) : Only rs ks { a with replayNext := v } { b with replayNext := v' } :=
  hv ▸ ⟨(congrArg (fun c : Blk => { c with replayNext := v' }) h.core :), h.reg, h.rcd, h.out⟩
theorem Only.put_heldCfg (h : Only rs ks a b) {v v'} (hv : v' = v) : Only rs ks { a with heldCfg := v } { b with heldCfg := v' } :=
  hv ▸ ⟨(congrArg (fun c : Blk => { c with heldCfg := v' }) h.core :), h.reg, h.rcd, h.out⟩
theorem Only.put_scrubRow (h : Only rs ks a b) {v v'} (hv : v' = v) : Only rs ks { a with scrubRow := v } { b with scrubRow := v' } :=
  hv ▸ ⟨(congrArg (fun c : Blk => { c with scrubRow := v' }) h.core :), h.reg, h.rcd, h.out⟩
theorem Only.put_imgLo (h : Only rs ks a b) {v v'} (hv : v' = v) : Only rs ks { a with imgLo := v } { b with imgLo := v' } :=
  hv ▸ ⟨(congrArg (fun c : Blk => { c with imgLo := v' }) h.core :), h.reg, h.rcd, h.out⟩
theorem Only.put_imgHi (h : Only rs ks a b) {v v'} (hv : v' = v) : Only rs ks { a with imgHi := v } { b with imgHi := v' } :=
  hv ▸ ⟨(congrArg (fun c : Blk => { c with imgHi := v' }) h.core :), h.reg, h.rcd, h.out⟩
theorem Only.put_fixed (h : Only rs ks a b) {v v'} (hv : v' = v) : Only rs ks { a with fixed := v } { b with fixed := v' } :=
  hv ▸ ⟨(congrArg (fun c : Blk => { c with fixed := v' }) h.core :), h.reg, h.rcd, h.out⟩
theorem Only.put_roundAt (h : Only rs ks a b) {v v'} (hv : v' = v) : Only rs ks { a with roundAt := v } { b with roundAt := v' } :=
  hv ▸ ⟨(congrArg (fun c : Blk => { c with roundAt := v' }) h.core :), h.reg, h.rcd, h.out⟩
theorem Only.put_refused (h : Only rs ks a b) {v v'} (hv : v' = v) : Only rs ks { a with refused := v } { b with refused := v' } :=
  hv ▸ ⟨(congrArg (fun c : Blk => { c with refused := v' }) h.core :), h.reg, h.rcd, h.out⟩
theorem Only.put_withdrawn (h : Only rs ks a b) {v v'} (hv : v' = v) : Only rs ks { a with withdrawn := v } { b with withdrawn := v' } :=
  hv ▸ ⟨(congrArg (fun c : Blk => { c with withdrawn := v' }) h.core :), h.reg, h.rcd, h.out⟩
theorem Only.put_adderNext (h : Only rs ks a b) {v v'} (hv : v' = v) : Only rs ks { a with adderNext := v } { b with adderNext := v' } :=
  hv ▸ ⟨(congrArg (fun c : Blk => { c with adderNext := v' }) h.core :), h.reg, h.rcd, h.out⟩
theorem Only.put_adderEnd (h : Only rs ks a b) {v v'} (hv : v' = v) : Only rs ks { a with adderEnd := v } { b with adderEnd := v' } :=
  hv ▸ ⟨(congrArg (fun c : Blk => { c with adderEnd := v' }) h.core :), h.reg, h.rcd, h.out⟩
theorem Only.put_droveAt (h : Only rs ks a b) {v v'} (hv : v' = v) : Only rs ks { a with droveAt := v } { b with droveAt := v' } :=
  hv ▸ ⟨(congrArg (fun c : Blk => { c with droveAt := v' }) h.core :), h.reg, h.rcd, h.out⟩
theorem Only.put_rwWait (h : Only rs ks a b) {v v'} (hv : v' = v) : Only rs ks { a with rwWait := v } { b with rwWait := v' } :=
  hv ▸ ⟨(congrArg (fun c : Blk => { c with rwWait := v' }) h.core :), h.reg, h.rcd, h.out⟩
theorem Only.put_epOff (h : Only rs ks a b) {v v'} (hv : v' = v) : Only rs ks { a with epOff := v } { b with epOff := v' } :=
  hv ▸ ⟨(congrArg (fun c : Blk => { c with epOff := v' }) h.core :), h.reg, h.rcd, h.out⟩
theorem Only.put_mx (h : Only rs ks a b) {v v'} (hv : v' = v) : Only rs ks { a with mx := v } { b with mx := v' } :=
  hv ▸ ⟨(congrArg (fun c : Blk => { c with mx := v' }) h.core :), h.reg, h.rcd, h.out⟩
theorem Only.put_wrapper (h : Only rs ks a b) {v v'} (hv : v' = v) : Only rs ks { a with wrapper := v } { b with wrapper := v' } :=
  hv ▸ ⟨(congrArg (fun c : Blk => { c with wrapper := v' }) h.core :), h.reg, h.rcd, h.out⟩
theorem Only.put_pwr (h : Only rs ks a b) {v v'} (hv : v' = v) : Only rs ks { a with pwr := v } { b with pwr := v' } :=
  hv ▸ ⟨(congrArg (fun c : Blk => { c with pwr := v' }) h.core :), h.reg, h.rcd, h.out⟩
theorem Only.put_sr (h : Only rs ks a b) {v v'} (hv : v' = v) : Only rs ks { a with sr := v } { b with sr := v' } :=
  hv ▸ ⟨(congrArg (fun c : Blk => { c with sr := v' }) h.core :), h.reg, h.rcd, h.out⟩
theorem Only.put_opNo (h : Only rs ks a b) {v v'} (hv : v' = v) : Only rs ks { a with opNo := v } { b with opNo := v' } :=
  hv ▸ ⟨(congrArg (fun c : Blk => { c with opNo := v' }) h.core :), h.reg, h.rcd, h.out⟩
theorem Only.put_wNo (h : Only rs ks a b) {v v'} (hv : v' = v) : Only rs ks { a with wNo := v } { b with wNo := v' } :=
  hv ▸ ⟨(congrArg (fun c : Blk => { c with wNo := v' }) h.core :), h.reg, h.rcd, h.out⟩
theorem Only.put_tnNo (h : Only rs ks a b) {v v'} (hv : v' = v) : Only rs ks { a with tnNo := v } { b with tnNo := v' } :=
  hv ▸ ⟨(congrArg (fun c : Blk => { c with tnNo := v' }) h.core :), h.reg, h.rcd, h.out⟩
theorem Only.put_fresh (h : Only rs ks a b) {v v'} (hv : v' = v) : Only rs ks { a with fresh := v } { b with fresh := v' } :=
  hv ▸ ⟨(congrArg (fun c : Blk => { c with fresh := v' }) h.core :), h.reg, h.rcd, h.out⟩

theorem Only.put_ring (h : Only rs ks a b) (r r' : Ring) (hr : { r' with emcy := [] } = { r with emcy := [] }) :
    Only rs ks { a with ring := r } { b with ring := r' } :=
  ⟨by
    have := congrArg (fun c : Blk => { c with ring := { r with emcy := [] } }) h.core
    simp only [Blk.core] at this ⊢
    rw [hr]
    exact this, h.reg, h.rcd, h.out⟩

theorem Only.reply (h : Only rs ks a b) (n s cc i u : Nat) (p : List Byte) : Only rs ks (a.reply n s cc i u p) (b.reply n s cc i u p) := by
  refine ⟨?_, h.reg, h.rcd, h.out⟩
  have := congrArg (fun c : Blk => { c with ring := { c.ring with answers := c.ring.answers ++ [mkFrame (BitVec.ofNat 8 n) s cc i u p] } }) h.core
  exact this

/-- A chain of changes, each within the same entries. -/
theorem Only.event (h : Only rs ks a b) (code cls unit : Nat) : Only rs ks a (b.event code cls unit) :=
  h.trans ((b.event_only code cls unit).mono (by simp) (by simp))

theorem Only.eventWith (h : Only rs ks a b) (code cls unit x : Nat) : Only rs ks a (b.eventWith code cls unit x) :=
  h.trans ((b.eventWith_only code cls unit x).mono (by simp) (by simp))

theorem Only.traceRec (h : Only rs ks a b) (kind cls : Nat) (p : List Byte) : Only rs ks a (b.traceRec kind cls p) :=
  h.trans ((b.traceRec_only kind cls p).mono (by simp) (by simp))

theorem Only.ordered (h : Only rs ks a b) (c : Blk) : Only rs ks a (orderBlk c b) :=
  h.trans ((orderBlk_only c b).mono (by simp) (by simp))

/-- An entry that neither the command nor the logs write. -/
theorem Only.reg_eq (h : Only [] ks a b) (k : Nat) (hk : k ∉ logRegs) : b.reg k = a.reg k := h.reg k hk (by simp)

theorem Blk.eventWith_reg (b : Blk) (code cls unit x k : Nat) (hk : k ∉ logRegs) : (b.eventWith code cls unit x).reg k = b.reg k :=
  (b.eventWith_only code cls unit x).reg_eq k hk

theorem Blk.event_reg (b : Blk) (code cls unit k : Nat) (hk : k ∉ logRegs) : (b.event code cls unit).reg k = b.reg k :=
  (b.event_only code cls unit).reg_eq k hk

end Sys2Proof.Machine
end

