-- ==== Sys2Proof/Laws/Serve.lean ====
section
/-! SUPPORT. What follows every change does nothing where nothing waits. -/

namespace Sys2Proof.Machine

theorem List.foldl_same {α β : Type} (f : β → α → β) (b : β) (l : List α) (h : ∀ x ∈ l, f b x = b) : l.foldl f b = b := by
  induction l with
  | nil => rfl
  | cons x xs ih =>
    rw [List.foldl_cons, h x (List.mem_cons_self ..)]
    exact ih (fun y hy => h y (List.mem_cons_of_mem _ hy))

theorem Blk.srNext_settled (b : Blk) (h : b.Settled) : b.srNext = b := by
  unfold Blk.srNext
  split
  · rfl
  · rename_i hc
    rcases h.1 with hp | ho
    · simp [hp] at hc
    · have hn : b.ops.find? (fun o => (o.d.opc == 0x60 || o.d.opc == 0x61) && o.role == .main && b.isHead o) = none := by
        rw [List.find?_eq_none]
        intro o ho'
        have := ho o ho'
        simp [this.1, this.2]
      rw [hn]

theorem Blk.sendAbort_none (b : Blk) (x : Xfer) (h : x.aborting = none ∨ x.abortSent = true ∨ x.orphan = true) :
    b.sendAbort x = b := by
  unfold Blk.sendAbort
  rw [if_pos]
  rcases h with h | h | h <;> simp [h]

theorem Blk.startXfer_none (b : Blk) (o : Op) (h : (o.d.opc = 0x10 ∨ o.d.opc = 0x11 ∨ o.role = .image) → ∃ x ∈ b.xfers, x.op = o.id) :
    b.startXfer o = b := by
  unfold Blk.startXfer
  dsimp only
  rw [if_pos]
  by_cases ho : o.d.opc = 0x10 ∨ o.d.opc = 0x11 ∨ o.role = .image
  · obtain ⟨x, hx, hxo⟩ := h ho
    have : b.xfers.all (fun x => x.op != o.id) = false := by
      rw [List.all_eq_false]; exact ⟨x, hx, by simp [hxo]⟩
    simp [this]
  · have h1 : (o.d.opc == 0x10) = false := by simp; exact fun e => ho (.inl e)
    have h2 : (o.d.opc == 0x11) = false := by simp; exact fun e => ho (.inr (.inl e))
    have h3 : (o.role == .image) = false := by simp; exact fun e => ho (.inr (.inr e))
    simp [h1, h2, h3]

theorem Blk.srTransfer_settled (b : Blk) (h : b.Settled) : b.srTransfer = b := by
  unfold Blk.srTransfer
  rw [h.2.2.2.1]

/-- An SE-M operation with something left to come is not complete. -/
theorem Blk.semComplete_open (b : Blk) (id : Nat) (h : b.SemsOpen) : b.semComplete id = b := by
  unfold Blk.semComplete
  split
  · rename_i o m ho hm
    have hid : m.op = id := by simpa using List.find?_some hm
    rw [if_pos]
    rcases (h m (List.mem_of_find?_eq_some hm)).2 o (hid ▸ ho) with hc | hc | ⟨w, hw, hc⟩ | ⟨r, hr, hc⟩
    · simp [hc]
    · simp [hc]
    · have : b.writes.any (fun w => w.op == id) = true := List.any_eq_true.2 ⟨w, hw, by simp [hc, hid]⟩
      simp [this]
    · have : m.rows.any (fun r => !r.done) = true := List.any_eq_true.2 ⟨r, hr, by simp [hc]⟩
      simp [this]
  · rfl

theorem Blk.semSettle_settled (b : Blk) (h : b.SemsOpen) : b.semSettle = b :=
  List.foldl_same _ b b.sems (fun m _ => b.semComplete_open m.op h)

theorem Blk.rowService_settled (b : Blk) (h : b.Settled) : b.rowService = b := by
  unfold Blk.rowService
  dsimp only
  rw [b.srTransfer_settled h, List.foldl_same (fun b x => Blk.sendAbort b x) b b.xfers (fun x hx => b.sendAbort_none x (h.2.1 x hx)),
    List.foldl_same (fun b o => Blk.startXfer b o) b b.ops (fun o ho => b.startXfer_none o (h.2.2.1 o ho)), ite_self]

theorem Blk.forcedEnd_settled (b : Blk) (h : b.Settled) : b.forcedEnd = b := by
  unfold Blk.forcedEnd
  rw [if_neg]
  simp [h.2.2.2.2.2.1]

theorem Blk.holdCauses_unheld (b : Blk) (h : b.Unheld) : b.holdCauses = 0 := by
  obtain ⟨h1, h2, h3, h4, h5, _⟩ := h
  have hx : b.xfers.any (fun x => x.slackHold && x.faulted.isSome && !x.orphan) = false := by
    rw [List.any_eq_false]; intro x hx; simp [h4 x hx]
  simp [Blk.holdCauses, h1, h2, h3, h5, hx]

theorem Blk.holdUpdate_unheld (st : Store) (b : Blk) (h : b.Unheld) : b.holdUpdate st = b := by
  have hc := b.holdCauses_unheld h
  obtain ⟨h1, h2, _, _, _, h6⟩ := h
  unfold Blk.holdUpdate
  rw [h1, h2, List.filter_nil, List.filter_nil]
  have hb : ({ b with sched := { b.sched with waiting := [], lagging := [] } } : Blk) = b := by
    rw [← h1, ← h2]
  rw [hb]
  simp [hc, h6]

/-- Nothing follows a change where nothing waits. -/
theorem Blk.serve_calm (st : Store) (b : Blk) (hs : b.Settled) (hu : b.Unheld) : b.serve st = b := by
  have h : b.stageFails = b := by
    unfold Blk.stageFails
    rw [if_neg]
    simp [hs.2.2.2.2.2.2.1]
  have ht : b.saveTables = b := by
    unfold Blk.saveTables
    rw [if_pos]
    simp [hs.2.2.2.2.2.2.2]
  unfold Blk.serve
  rw [h, b.semSettle_settled hs.2.2.2.2.1, b.srNext_settled hs, ht, b.rowService_settled hs, b.forcedEnd_settled hs, b.holdUpdate_unheld st hu]

theorem Blk.traceServe_none (b : Blk) (h : b.flt.trWait = []) : b.traceServe = b := by
  unfold Blk.traceServe
  rw [h]
  rfl

theorem State.mxServe_none (s : State) (h : s.blk.mx.waits = []) (ht : s.blk.flt.trWait = []) : s.mxServe = s := by
  unfold State.mxServe
  rw [h, s.blk.traceServe_none ht]
  show { s with blk := s.blk.traceServe } = s
  rw [s.blk.traceServe_none ht]

end Sys2Proof.Machine
end

