-- ==== Sys2Proof/Tests/Slice0.lean ====
section
/-! SUPPORT. Tests of the model. First, that `wellFormed` refuses an ill-formed command for each of its checks; then values that the
spec works out itself; then, for every statement of Certificates/Slice0/Obligations.lean that has hypotheses, a concrete state and
operands that meet them (`wit_<statement>`), clause by clause. -/

open Sys2Proof Sys2Proof.Machine

set_option synthInstance.maxSize 5000
set_option synthInstance.maxHeartbeats 200000

namespace Sys2Proof.Tests

/-! ### Small states -/

/-- A block in Configured, in Running at cycle 1,000 of tick 7, and in Boot at phase `ph`. -/
def bConf : Blk := { lc := .configured, pins := { coldLow := false, seqHeld := false, fwStarted := true, bridgeOn := true } }
def tRun : TickUnit := { wall := 5000, tick := 7, lcyc := 1000, unheld := 1000, beat := 1000, since := 7 }
def bRun : Blk := { bConf with lc := .running, tick := tRun, sched := { on := true } }
def bBoot (ph : Nat) : Blk := { bConf with lc := .boot, pins := { bConf.pins with bootPhase := ph, bootStep := 3, fwStarted := false } }
def sOf (b : Blk) : State := { blk := b }

/-- Values of the tick in force: `TICK_LEN`, `GUARD`, `RECOMP_RESERVE`, follow mode, window, miss limit. -/
def inForce : Tab Nat :=
  [(K.TICK_LEN, 30000), (K.GUARD, 1000), (K.RECOMP_RESERVE, 2000), (K.SYNC_MODE, 1), (K.SYNC_WINDOW, 300), (K.SYNC_MISS_LIMIT, 3)]
def bSync (t : TickUnit) : Blk := { bRun with tick := t, force := inForce }

/-- The state after command `c` from `s`. -/
def after (c : Instr) (s : State) : State :=
  match exec c s with
  | .next t => t
  | _ => s

/-! ### Ill-formed commands are refused -/

theorem test_wellFormed_refuses_ring_operands :
    wellFormed (.run 256 1) = false ∧ wellFormed (.run 255 1) = true ∧ wellFormed (.run 255 (2 ^ 64)) = false
      ∧ wellFormed (.expeditedRead 1 65536 0) = false ∧ wellFormed (.expeditedRead 1 0x2000 256) = false
      ∧ wellFormed (.expeditedWrite 1 0x2000 1 (List.replicate 9 0)) = false
      ∧ wellFormed (.segmentInitiate 1 0x2000 1 true (2 ^ 32)) = false
      ∧ wellFormed (.segmentFrame 1 0x2000 1 true true (List.replicate 9 0)) = false
      ∧ wellFormed (.requesterAbort 0x2000 1 (2 ^ 32)) = false ∧ wellFormed (.forwardFrame (List.replicate 19 0)) = false
      ∧ wellFormed (.reqBias 1 6 0 0) = false ∧ wellFormed (.reqBias 1 5 16 0) = false := by decide
set_option maxRecDepth 5000 in
theorem test_wellFormed_refuses_beats :
    wellFormed (.hogPenaltyEnd 6 0) = false ∧ wellFormed (.hogPenaltyEnd 5 16) = false ∧ wellFormed (.openReadDeliver 13 true) = false
      ∧ wellFormed (.sumacRound 6 [] [] []) = false ∧ wellFormed (.sumacRound 5 [{ endpt := 13, beat := {} }] [] []) = false
      ∧ wellFormed (.routeRow { sb := List.replicate 129 0 }) = false
      ∧ wellFormed (.scheduledReadAccess 1 true {} [{ bank := 34, entry := 0, word := 0, double := false }]) = false
      ∧ wellFormed (.scheduledReadAccess 1 true {} [{ bank := 0, entry := 1024, word := 0, double := false }]) = false
      ∧ wellFormed (.scheduledReadAccess 1 true {} [{ bank := 0, sb := true, entry := 0, word := 4, double := false }]) = false
      ∧ wellFormed (.storedBelow 65536 0) = false ∧ wellFormed (.storedBelow 0 256) = false ∧ wellFormed (.rowFault 0 0 256) = false
      ∧ wellFormed (.conversionMismatch 6) = false ∧ wellFormed (.bistDone [34] false false false) = false := by decide
theorem test_wellFormed_refuses_beats_too_long : wellFormed (.routeRow { data := List.replicate 1025 0 }) = false := by
  have h : (List.replicate 1025 (0 : Byte)).length = 1025 := List.length_replicate
  show (decide ((List.replicate 1025 (0 : Byte)).length ≤ 1024) && decide (([] : List Byte).length ≤ 128)) = false
  rw [h]
  decide
theorem test_wellFormed_refuses_descriptors :
    wellFormed (.tld { opc := 0x10, slot := 511 }) = true ∧ wellFormed (.tld { opc := 0x11 }) = false
      ∧ wellFormed (.tld { opc := 0x10, slot := 512 }) = false ∧ wellFormed (.tld { opc := 0x10, nrows := 256 }) = false
      ∧ wellFormed (.tld { opc := 0x10, stride := 2 ^ 31 }) = false ∧ wellFormed (.tld { opc := 0x10, cadence := 32 }) = false
      ∧ wellFormed (.tld { opc := 0x10, slotCycle := 2 ^ 21 }) = false ∧ wellFormed (.dependencyCheck 65536) = false := by decide
theorem test_wellFormed_refuses_matrix_operands :
    wellFormed (.matrixBurst { master := 5, addr := 4, size := 4, beats := 16 } false) = true
      ∧ wellFormed (.matrixBurst { master := 6, addr := 4, size := 4, beats := 16 } false) = false
      ∧ wellFormed (.matrixBurst { master := 5, addr := 2, size := 4, beats := 16 } false) = false
      ∧ wellFormed (.matrixBurst { master := 5, addr := 0, size := 3, beats := 1 } false) = false
      ∧ wellFormed (.matrixBurst { master := 5, addr := 0, size := 4, beats := 17 } false) = false
      ∧ wellFormed (.matrixBurst { master := 5, write := true, addr := 0, size := 4, beats := 1, data := [none] } false) = false
      ∧ wellFormed (.matrixTimeout 6) = false ∧ wellFormed (.lockTimeout 10) = false ∧ wellFormed (.matrixParityError 254) = false
      ∧ wellFormed (.remapWrite (2 ^ 32)) = false := by decide

/-! ### Values that the spec works out -/

/-- 00_scope.md, "composing a logical stamp"; 02_tick.md R56. -/
theorem test_stamp : mkStamp 1000 12345 2 = 0x3E80181CC ∧ mkStamp 3300 82016 0 = 0xCE40A0300 := by decide

/-- 04_banks.md, "three streams, one spare and a transposed feed": slots 3 and 76. -/
theorem test_banks :
    [0, 1, 2, 9].map (fun r => (bConf.groupOf 3 r, bConf.physOf 3 r 0, bConf.entryOf 3 r))
      = [(3, 12, 24), (4, 16, 24), (5, 20, 24), (4, 16, 25)]
    ∧ [0, 1, 2, 9].map (fun r => (bConf.groupOf 76 r, bConf.physOf 76 r 3, bConf.entryOf 76 r))
      = [(4, 19, 608), (5, 23, 608), (6, 27, 608), (5, 23, 609)] := by decide

set_option maxRecDepth 20000 in
/-- 13_evien.md R314 and 10_descriptors.md R256: the nine bytes "123456789". -/
theorem test_crcs :
    crc16 [0x31, 0x32, 0x33, 0x34, 0x35, 0x36, 0x37, 0x38, 0x39] = 0x29B1
      ∧ crc32 [0x31, 0x32, 0x33, 0x34, 0x35, 0x36, 0x37, 0x38, 0x39] = 0xCBF43926 := by decide

/-- 03_tile_registers.md, "a padded FP8 tile": the shape word, and bits [95:64] of the status word after the fault at row 23. -/
theorem test_tile_word :
    shRows 0x131828 = 40 ∧ shRB 0x131828 = 768 ∧ shFmt 0x131828 = 3 ∧ shMode 0x131828 = 1
      ∧ fieldAt (({ rowValid := 0x7FFFFF, epoch := 5, startRow := 23, inUse := true, shape := 0x131828 } : Tile).word) 8 4 = 0x97170005
      := by decide

/-- 10_descriptors.md, "encoding an open `TLD`". -/
theorem test_decode_tld :
    decodeDesc ([0x10, 0x11, 0, 0x85, 0xFF, 0xFF, 0x7F, 0, 0x70, 0x11, 1, 0, 0x11, 0, 0, 0x30, 0, 0, 0, 0x80, 0x42, 0, 0, 0,
        0, 8, 0, 0, 0, 0, 0, 0])
      = { opc := 0x10, cadence := 1, port := 5, endpt := 8, slotCycle := 0x1FFFFF, req := 3, deadline := 70000, slot := 17, nrows := 48,
          base := 0x4280000000, stride := 2048 } := by decide

/-- 09_numerics.md, "an FP8 take that overflows": 150.0 at σ = 2 gives 448 and overflows; at σ = 0 it gives 144. -/
theorem test_fp8_overflow :
    decodeElem 3 (convElem 3 2 false (decodeElem 0 0x43160000) {}).1 = decodeElem 3 0x7E
      ∧ (convElem 3 2 false (decodeElem 0 0x43160000) {}).2.sums.overflow = true
      ∧ (convElem 3 0 false (decodeElem 0 0x43160000) {}).1 = 0x71
      ∧ (convElem 3 0 false (decodeElem 0 0x43160000) {}).2.sums.overflow = false
      ∧ (convElem 3 0 false (decodeElem 0 0x43160000) {}).2.sums.amax = some 7 := by decide

/-- 08_route_merge.md, "six shards, one missing": the tree gives 1.0. -/
theorem test_merge_tree :
    treeValue 13 0 6 [(0, [0x4B800000]), (1, [0x3F800000]), (2, [0x3F800000]), (4, [0xCB800000]), (5, [0x3F800000])]
      = some [0x3F800000] := by decide

/-- 14_dictionary.md, steps 1, 4 and 6 of its example: the retired bank, the refused `RUN`, the acknowledged flags. -/
def sRetired : State := after (.retireBank 1 13) (sOf bConf)
set_option maxRecDepth 20000 in
theorem test_retire_bank :
    sRetired.blk.bankMap 13 = 32 ∧ sRetired.blk.reg K.SPARES_FREE = 1 ∧ sRetired.blk.errorReg = 0x49 ∧ sRetired.blk.newest = (0x0203, 2, 13)
      ∧ (after (.faultAck 1 5) { sRetired with blk := { sRetired.blk with tick := { sRetired.blk.tick with wall := 1 } } }).blk.errorReg = 0x41 := by
  decide
set_option maxRecDepth 20000 in
/-- 01_boundary.md R19: a bit whose event falls in the acknowledge's own cycle stays. -/
theorem test_fault_ack_same_cycle : bit (after (.faultAck 1 4) sRetired).blk.flt.out 2 = true := by decide
set_option maxRecDepth 20000 in
/-- 14_dictionary.md R351 and 16_faults.md R392: the clear comes before an event of its cycle, which takes position 1 and offset 0. -/
theorem test_clear_before_event :
    (after (.ehCountClear 1 0) sRetired).blk.reg K.EH_COUNT = 1
      ∧ (after (.traceClear 1 1) sRetired).blk.reg K.TRACE_FILL = 32
      ∧ ((after (.deadReadClear 1 255) (sOf (({ bConf with tiles := [(3, { deadRead := true }), (4, { deadRead := true })] } : Blk).noteSet 131))).blk.tile 3).deadRead
      ∧ ((after (.deadReadClear 1 255) (sOf (({ bConf with tiles := [(3, { deadRead := true }), (4, { deadRead := true })] } : Blk).noteSet 131))).blk.tile 4).deadRead = false
      := by decide
/-- 16_faults.md R371: an uncorrectable error in an Anise slot leaves it uncommitted. -/
theorem test_anise_error :
    byteAt ((after (.matrixBurst { master := 5, addr := 0x300020, size := 4, beats := 2 } true) (sOf bConf)).blk.aniseSlot 1) 20 = 2 := by decide
theorem test_refused_commands :
    (after (.run 1 1) (sOf bConf)).blk.ring.answers = (bConf.abortReply 1 0x2F00 3 0x00030003).ring.answers
      ∧ (after (.dictWrite 1 0x2000 1 0) (sOf { bConf with lc := .armed })).blk
          = ({ bConf with lc := .armed } : Blk).abortReply 1 0x2000 1 0x00030002 := by
  exact ⟨rfl, rfl⟩

/-! ### Witnesses: premises about steps -/

theorem wit_LifecycleFollowsItsTable : step State.reset = .next State.reset := rfl
theorem wit_LifecycleFollowsItsTable_boot :
    (after (.coldResetRelease false) State.reset).blk.lc = .boot ∧ (LC.off, LC.boot) ∈ lcEdges := by decide

/-! ### Witnesses: the step, resets and boot, the tick unit -/

theorem wit_EmptyQueueIdlesOrCountsACycle :
    (State.reset.pending = [] ∧ State.reset.blk.lc = .off)
    ∧ (let s := sOf { bConf with droveAt := 1 }
       s.pending = [] ∧ s.blk.lc = .configured ∧ s.blk.pins.coldLow = false ∧ s.blk.dueFirst s.mem = none ∧ s.blk.dueThen s.mem = none
         ∧ firstDue (dueService s.blk) = none ∧ s.blk.mx.waits = [] ∧ s.blk.flt.trWait = [] ∧ s.blk.flt.convUsed = false
         ∧ s.blk.ringDue = false ∧ dueRound s.mem s.blk = none ∧ s.blk.droveAt = s.blk.tick.wall + 1 ∧ s.blk.writes = []
         ∧ s.blk.ops = [] ∧ s.blk.outs = [] ∧ s.blk.flt.today = [] ∧ s.blk.scrubDue = none ∧ s.blk.sr.phase = 0) := by decide

theorem wit_StepKeepsMemoriesCanonical : State.reset.mem.canonical := by unfold Store.canonical; decide

theorem wit_ColdAndShortResets : (16 : Nat) ≤ 16 ∧ (15 : Nat) < 16 := by decide

theorem wit_ReleasesStartBoot :
    (State.reset.blk.pins.coldLow = true ∧ State.reset.blk.pins.warmLow = false)
    ∧ (let b : Blk := { bConf with lc := .off, pins := { bConf.pins with coldLow := true, warmLow := true } }
       b.pins.coldLow = true ∧ b.pins.warmLow = true)
    ∧ (let b : Blk := { bBoot 0 with pins := { (bBoot 0).pins with warmLow := true } }
       b.pins.warmLow = true ∧ b.lc = .boot ∧ b.pins.coldLow = false ∧ fwFail {} ≠ none) := by decide

theorem wit_WarmRingAndWrapperResets :
    (16 : Nat) ≤ 16 ∧ bRun.lc ≠ .off ∧ bRun.flt.retiring = [] ∧ bRun.mx.waits = [] ∧ bRun.mx.locks = []
      ∧ bRun.mx.freed = [] ∧ bRun.flt.trWait = []
      ∧ ({ bRun with sr := { phase := 2 } } : Blk).sr.phase ≠ 0 ∧ ({ bRun with pins := { bRun.pins with bist := 1 } } : Blk).pins.bist ≠ 0
      ∧ Tab.wf aniseDefault ([(5, List.replicate 32 1), (4095, List.replicate 32 2)] : Tab (List Byte)) ∧ bRun.reg K.IMAGE_STATE ≠ 1 ∧ ({ bConf with regs := [(K.IMAGE_STATE, 1)] } : Blk).reg K.IMAGE_STATE = 1
      := by decide

theorem wit_RemapAndServiceFirmware :
    bConf.mxHeld 1 = false
    ∧ ({ bConf with mx := { waits := [{ burst := { master := 0, addr := 0, size := 4, beats := 1 }, since := 3, why := 2 }] } } : Blk).romOpen = true
    ∧ (let b : Blk := { bBoot 2 with mx := { remapWait := true } }
       b.mx.remapWait = true ∧ b.mx.waits = [] ∧ b.flt.trWait = [] ∧ b.lc = .boot ∧ b.pins.bootPhase = 2 ∧ b.pins.warmLow = false
         ∧ (b.pwr.waitAck = none ∨ b.pwr.ack = false)) := by decide

/-- A firmware image of one instruction word of zeros behind its header, of kind `kind`, with its checksum (11_sequencer.md R276). -/
def fwImage (kind : Nat) : List Byte :=
  let img (crc : Nat) : List Byte :=
    leBytes 4 0x46574C44 ++ [BitVec.ofNat 8 kind, 0, 0, 0] ++ leBytes 4 1 ++ leBytes 2 0x0101 ++ leBytes 2 0x0100 ++ leBytes 2 0x0100
      ++ [0, 0] ++ leBytes 4 96 ++ leBytes 4 64 ++ leBytes 4 crc ++ List.replicate 64 0
  img (crc32 (img 0))
def mFw : Store := { prog := Mem.write (Mem.write [] 0 (fwImage 1)) 65536 (fwImage 2) }
set_option maxRecDepth 200000 in
theorem wit_ProgCtrlStartsAndReturns_sound : fwFail mFw = none := by decide
theorem wit_ProgCtrlStartsAndReturns :
    ((bBoot 1).Calm ∧ (bBoot 1).RingIdle ∧ (bBoot 1).lc = .boot ∧ (bBoot 1).pins.bootPhase ≠ 2 ∧ fwFail {} ≠ none)
    ∧ bConf.RingIdle ∧ bConf.lc = .configured ∧ bConf.flt.retiring = [] ∧ ({ bConf with sr := { phase := 1 } } : Blk).sr.phase ≠ 0 := by decide

/-- Armed, before and after `RUN`. -/
def bArm (t : TickUnit) (f : Tab Nat) : Blk := { bConf with lc := .armed, tick := t, force := f }
def uRun : TickUnit := { runAt := some 4 }
theorem wit_RunAndFirstTick :
    ((bArm {} inForce).lc = .armed ∧ (bArm {} inForce).Calm ∧ (bArm {} inForce).RingIdle ∧ (bArm {} inForce).tick.runAt = none)
    ∧ ((bArm uRun inForce).lc = .armed ∧ (bArm uRun inForce).tick.runAt.isSome = true ∧ (bArm uRun inForce).cfg K.SYNC_MODE = 1
      ∧ (bArm uRun inForce).tick.startDriven = false ∧ (bArm uRun inForce).Calm ∧ (bArm uRun inForce).flt.badTick = false)
    ∧ (let f (g : Tab Nat) : Blk := { bArm uRun g with flt := { badTick := true } }
       (f inForce).flt.badTick = true ∧ (f inForce).Calm ∧ (f []).Calm ∧ (4 : Nat) ≤ 4)
    ∧ (bArm uRun []).cfg K.SYNC_MODE = 0 ∧ (bArm uRun []).Calm := by decide

theorem wit_SyncGlitchesAndMisses :
    (bRun.Calm ∧ bRun.cfg K.SYNC_MODE = 0) ∧ ((bSync tRun).lc ≠ .off ∧ (bSync tRun).cfg K.SYNC_MODE = 1 ∧ (3 : Nat) < 4)
    ∧ (let b := bSync { tRun with unheld := 29699 }
       b.ticking = true ∧ b.Calm ∧ b.tick.unheld + b.cfg K.SYNC_WINDOW < b.cfg K.TICK_LEN + b.tick.ext ∧ b.tick.lateOpen = false)
    ∧ (let b := bSync { tRun with unheld := 300, lateOpen := true }
       b.cfg K.SYNC_WINDOW ≤ b.tick.unheld ∧ b.tick.lateOpen = true ∧ b.tick.lateSeen = false ∧ b.tick.missed = false)
    ∧ (bSync { tRun with lateOpen := true, missed := true }).tick.missed = true := by decide

theorem wit_InWindowPulseMovesTheBoundary :
    let e := bSync { tRun with unheld := 29700 }
    let l := bSync { tRun with unheld := 299, lateOpen := true }
    (e.Calm ∧ (4 : Nat) ≤ 4 ∧ e.ticking = true ∧ e.cfg K.SYNC_MODE = 1 ∧ e.cfg K.GUARD ≤ 8192 ∧ e.reg K.SYNC_OFFSET < 65536
      ∧ e.cfg K.TICK_LEN + e.tick.ext ≤ e.tick.unheld + e.cfg K.SYNC_WINDOW ∧ e.tick.earlySeen = false
      ∧ toSigned 16 (e.reg K.SYNC_OFFSET) = 0)
    ∧ (l.Calm ∧ ¬l.cfg K.TICK_LEN + l.tick.ext ≤ l.tick.unheld + l.cfg K.SYNC_WINDOW ∧ l.tick.lateOpen = true
      ∧ l.tick.unheld < l.cfg K.SYNC_WINDOW ∧ l.tick.lateSeen = false)
    ∧ (bSync { tRun with unheld := 29850, earlySeen := true }).tick.earlySeen = true := by decide

theorem wit_HoldsFreezeAndFault :
    bRun.tick.holdIn = false ∧ (bSync { tRun with holdIn := true }).tick.holdIn = true
    ∧ (let b := bSync { tRun with holdIn := true, freezeAt := [5003] }
       b.ticking = true ∧ b.tick.freezeAt.getLast? = some (b.tick.wall + 3))
    ∧ (let b := bSync { tRun with freezeAt := [9] }
       b.ticking = true ∧ b.tick.frozen = false ∧ b.tick.freezeAt ≠ [])
    ∧ (let b := bSync { tRun with frozen := true, resumeAt := [3] }
       b.ticking = true ∧ b.tick.frozen = true ∧ b.tick.resumeAt ≠ [])
    ∧ (let b := bSync { tRun with holdOut := some 4 }
       b.ticking = true ∧ b.tick.holdOut.isSome = true ∧ b.tick.holdSeen = false ∧ b.tick.netFault = false) := by decide

theorem wit_GuardAndSlackEnd :
    let o : Op := { id := 5, d := { opc := 0x22 } }
    (bRun.moving = true ∧ bRun.tick.guardDone = false ∧ bRun.replayQ = [] ∧ bRun.Calm ∧ bRun.tick.slackDone = false)
    ∧ (let b : Blk := { bRun with replayQ := [5], ops := [o] }
       b.moving = true ∧ b.replayQ ≠ [] ∧ (∀ i ∈ b.replayQ, (b.op? i).isSome = true) ∧ b.Settled ∧ b.sems = []) := by decide

theorem wit_ScrubZeroesRowsOfItsSlot :
    let t : Tile := { scrubPend := true }
    let b : Blk := { bRun with tick := { tRun with guardDone := true }, force := inForce, tiles := [(4, t)] }
    let e : Blk := { b with scrubRow := [(4, 56)] }
    let h : Blk := { e with heldCfg := [{ opc := 1, slot := 4, shape := 0x440 }] }
    (b.scrubNow = some 4 ∧ b.Settled ∧ Tab.get (fun _ => 0) b.scrubRow 4 + 8 < 64)
    ∧ (e.scrubNow = some 4 ∧ e.Settled ∧ 64 ≤ Tab.get (fun _ => 0) e.scrubRow 4 + 8)
    ∧ (h.scrubNow = some 4 ∧ h.Settled ∧ h.sems = [] ∧ h.xfers = [] ∧ h.ops = []) := by decide

theorem wit_BoundariesBeginTicksOrDrain :
    let d : Blk := { bRun with lc := .draining }
    bRun.Calm ∧ bRun.moving = true ∧ bRun.boundaryWaits = false ∧ bRun.lc ≠ .draining ∧ bRun.replayQ = [] ∧ bRun.flt.retiring = [] ∧ bRun.flt.failing = []
      ∧ bRun.flt.mergeFailing = false ∧ bRun.sr.phase ≠ 1 ∧ bRun.pins.stopPend = 0 ∧ bRun.pwr.nextPorts = none
      ∧ bRun.pwr.nextGroups = none ∧ ({ bRun with pins := { bRun.pins with stopPend := 2 } } : Blk).pins.stopPend = 2
      ∧ ({ bRun with pins := { bRun.pins with stopPend := 1 } } : Blk).pins.stopPend = 1 ∧ (bRun.tick.since + 1) % max 1 ({} : Store).progs = 0
      ∧ ({ bRun with pins := { bRun.pins with stopPend := 4 } } : Blk).pins.stopPend ≠ 2
      ∧ d.Calm ∧ d.moving = true ∧ d.lc = .draining ∧ d.drained = true
      ∧ (let h := bSync { tRun with holdIn := true, endHold := true, ended := true }
         h.Calm ∧ h.moving = true ∧ h.boundaryWaits = true)
      ∧ (let u (n : Nat) : Blk := { d with ops := [{ id := 5, opn := true, d := { opc := 0x20 } }], pins := { d.pins with drainN := n } }
         (u 3).drained = false ∧ (u 3).pins.drainN + 1 < 16 ∧ 16 ≤ (u 15).pins.drainN + 1 ∧ (u 15).xfers = [] ∧ (u 15).sr.phase = 0
           ∧ (u 15).writes = [] ∧ (u 15).Calm ∧ (u 15).boundaryWaits = false)
      ∧ (let h : Blk := { bRun with rwWait := [], regs := [(K.HEARTBEAT_TICKS, 3)], ring := { hbCount := 2 } }
         h.rw K.HEARTBEAT_TICKS ≠ 0 ∧ h.rw K.HEARTBEAT_TICKS ≤ h.ring.hbCount + 1) := by decide

/-! ### Witnesses: power and the units that take the cell out -/

theorem wit_PowerChangesStartAndComplete_ack :
    let w (r : Nat) : Blk := { bConf with pwr := { waitAck := some 3, req := r } }
    bConf.pwr.waitAck = none ∧ (w 1).pwr.ack = false ∧ (w 1).lc ≠ .boot
    ∧ (w 1).pwr.waitAck.isSome = true ∧ (w 1).lc ≠ .off ∧ (w 1).pwr.req ≠ 0 ∧ (w 0).pwr.req = 0 ∧ (w 1).pwr.timedOut = false
    ∧ ({ bConf with pwr := { wakeEnd := some 9 } } : Blk).pwr.wakeEnd.isSome = true := by decide

/-- Configured, with the data path at state `v`. -/
def bPwr (v : Nat) : Blk := { bConf with regs := [(K.PWR_BLOCK, v)] }
theorem wit_PowerChangesStartAndComplete :
    (bPwr 0).Calm ∧ (bPwr 0).RingIdle ∧ (bPwr 0).lc = .configured ∧ (bPwr 0).pins.bist = 0 ∧ (bPwr 0).sr.phase = 0
      ∧ (bPwr 0).pwr.waitAck = none ∧ (bPwr 0).writes = [] ∧ (2 : Nat) ≠ (bPwr 0).reg K.PWR_BLOCK
      ∧ ((bPwr 0).reg K.PWR_BLOCK = 3 → (2 : Nat) ≠ 2) ∧ (3 : Nat) ≠ (bPwr 2).reg K.PWR_BLOCK ∧ (bPwr 2).Calm
      ∧ (bPwr 3).reg K.PWR_BLOCK ≠ 0 ∧ (bPwr 3).Calm := by decide

/-- Half mode on groups 1, 2, 3 and 7. -/
def bHalf : Blk := { bConf with regs := [(K.HALF_MODE, 1), (K.HALF_GROUPS, 0x07030201)] }
theorem wit_IdleEntriesSetUnitStates :
    bConf.Calm ∧ bConf.Serving ∧ bConf.pins.bist = 0 ∧ bConf.reg K.PWR_BLOCK = 0 ∧ bConf.lc = .configured ∧ bConf.half = false
      ∧ bRun.Calm ∧ bRun.Serving ∧ bRun.ticking = true ∧ (63 : Nat) < 64 ∧ (255 : Nat) < 256 ∧ bRun.reg K.IMAGE_STATE ≠ 2
      ∧ (∀ l ∈ [LC.armed, .safe], let b : Blk := { bConf with lc := l }
         b.Calm ∧ b.Serving ∧ b.reg K.PWR_BLOCK = 0)
      ∧ (bHalf.Calm ∧ bHalf.Serving ∧ bHalf.half = true ∧ (∀ h, h < 4 → bHalf.halfGroup h < 8)
        ∧ ∀ h, h < 4 → ∀ j, j < 4 → bHalf.halfGroup h = bHalf.halfGroup j → h = j) := by decide

theorem wit_CellOutFaultsEnterSafe :
    cellOutCode (.matrixParityError 255) = some 0x0904 ∧ bRun.lc ≠ .off ∧ cellOutCode .bridgeSendCrcMismatch = some 0x0A01
      ∧ bRun.ring.fenced = false ∧ bRun.mx.waits = [] ∧ bRun.mx.locks = [] ∧ bRun.mx.freed = [] ∧ bRun.flt.trWait = [] ∧ cellOutCode .railLost = some 0x0B03 ∧ bRun.pwr.req = 0 ∧ bRun.pwr.waitAck = none
      ∧ (bBoot 1).lc = .boot ∧ cellOutCode .tickUnitMismatch = some 0x0B01 ∧ cellOutCode (.conversionMismatch 5) = some 0x0B02
      ∧ cellOutCode (.seqRamUncorrectable true) = some 0x0807 ∧ cellOutCode .watchdogExpiry = some 0x0808 := by decide

/-! ### Witnesses: descriptors -/

/-- Slots 0 to 9 valid, 10 to 19 empty; slots 0 to 19 in use, 1 in `DE-A`'s format and 3 with INT32. -/
def tA : Tile := { inUse := true, state := .valid, shape := 0x0440, epoch := 9, rowValid := 0xFFFFFFFFFFFFFFFF, scaleSlot := 7 }
def tE : Tile := { inUse := true, state := .empty, shape := 0x0440, epoch := 9, rowValid := 0, scaleSlot := 8, zread := true }
def forElems : Tab Nat := [(K.EP_ELEMS_DE_A, 64), (K.EP_ELEMS_DE_O, 32), (K.EP_ELEMS_SE_M, 32)] ++ inForce
def bDesc : Blk :=
  { bRun with
    force := forElems,
    tiles := (List.range 10).map (fun i => (i, if i = 1 then { tA with shape := 0x10440 } else if i = 3 then { tA with shape := 0xD0440 }
        else tA))
      ++ (List.range 10).map (fun i => (i + 10, tE)) }
/-- One descriptor of each row, port and merge opcode, in the slot of cycle `sc` (0x1FFFFF: an open slot). -/
def dOf (opc sc : Nat) : Desc :=
  match opc with
  | 0x10 => { opc, port := 3, endpt := 8, slotCycle := sc, slot := 12, nrows := 8, base := 4096, stride := 128 }
  | 0x11 => { opc, port := 3, endpt := 9, slotCycle := sc, slot := 2, nrows := 8, base := 4096, stride := 128 }
  | 0x20 => { opc, port := 0, endpt := 0, slotCycle := sc, slot := 1, nrows := 8 }
  | 0x21 => { opc, port := 0, endpt := 0, slotCycle := sc, slot := 1, nrows := 8 }
  | 0x22 => { opc, port := 4, endpt := 2, slotCycle := sc, slot := 12, nrows := 8 }
  | 0x30 => { opc, port := 2, endpt := 3, slotCycle := sc, slot := 3, nidx := 5, srcBase := 2, srcTiles := 1 }
  | 0x31 => { opc, port := 5, endpt := 4, slotCycle := sc, slot := 12, nexp := 2, bktTiles := 1, cap := 8, resBase := 16, resTiles := 1,
              opid := 3 }
  | 0x32 => { opc, port := 5, endpt := 4, slotCycle := sc, slot := 12, nrows := 4, accPort := 1, opid := 3 }
  | 0x33 => { opc, port := 5, endpt := 4, slotCycle := sc, slot := 12, dstTiles := 2, choices := 2, opid := 3 }
  | 0x40 => { opc, port := 3, endpt := 12, slotCycle := sc, slot := 2, nrows := 4, dst := 12, wport := 5 }
  | 0x41 => { opc, port := 3, endpt := 12, slotCycle := sc, slot := 2, nrows := 4, dst := 12, wport := 5 }
  | 0x50 => { opc, port := 3, endpt := 11, slotCycle := sc, slot := 2, nrows := 4, chan := 1 }
  | 0x51 => { opc, port := 5, endpt := 10, slotCycle := sc, slot := 12, nrows := 4, chan := 1 }
  | 0x60 => { opc, port := 3, endpt := 12, slotCycle := sc, req := 1, base := 64, limit := 100000000 }
  | 0x61 => { opc, port := 3, endpt := 12, slotCycle := sc, req := 1, base := 64, limit := 100000000 }
  | _ => { opc, slotCycle := sc, slot := 2 }
abbrev openSc : Nat := 0x1FFFFF

theorem wit_TilesAreConfiguredAndReleased :
    bDesc.Issues {} { opc := 1, slot := 511, shape := 0x440 } ∧ bDesc.Issues {} { opc := 2, slot := 2 } ∧ bDesc.Calm
      ∧ bDesc.sems = [] ∧ bDesc.xfers = [] ∧ bDesc.ops = [] := by decide
theorem wit_TilesAreConfiguredAndReleased' : bDesc.Untangled := ⟨by decide, by decide, fun _ h => nomatch h⟩

theorem wit_CancelPowerAndEndDescriptors :
    bDesc.Issues {} { opc := 3, slot := 2, nslots := 0 } ∧ bDesc.Issues {} { opc := 3, slot := 2, nslots := 255 } ∧ bDesc.Calm
      ∧ bDesc.sems = [] ∧ bDesc.Issues {} { opc := 0x70 } ∧ bDesc.Issues {} { opc := 0x70, pmask := 63, gmask := 255 }
      ∧ bDesc.half = false ∧ bDesc.Issues {} { opc := 0x7F }
      ∧ (let h : Blk := { bDesc with regs := bHalf.regs }
         h.half = true ∧ h.Calm ∧ h.Issues {} { opc := 0x70, pmask := 63, gmask := 15, pstate := 1 }) := by decide

theorem wit_MarkTracesItsId :
    let b : Blk := { bDesc with regs := [(K.TRACE_EN, 255)], force := (K.MX_MASTER_EN, 63) :: bDesc.force }
    b.Issues {} { opc := 0x71, markId := 99 } ∧ b.Calm ∧ bit (b.reg K.TRACE_EN) 1 = true ∧ bit (b.cfg K.MX_MASTER_EN) 4 = true ∧ b.lockOf 6 = none
      ∧ b.reg K.TRACE_STOP_FULL = 0
      ∧ bit (({ b with regs := [(K.TRACE_EN, 0)] } : Blk).reg K.TRACE_EN) 1 = false := by decide

/-- What the issue of an open descriptor asks for. -/
abbrev Ready (b : Blk) (d : Desc) : Prop :=
  b.Issues {} d ∧ emptyDesc d = false ∧ b.shapeCheck d = none ∧ (b.requester d.port d.req).queue.length < 8

theorem wit_PortOperationsStart :
    bDesc.Calm ∧ ∀ opc ∈ [0x20, 0x21, 0x22, 0x30, 0x40, 0x41, 0x50, 0x51], Ready bDesc (dOf opc openSc) ∧ isOpenDesc (dOf opc openSc) = true
      ∧ (dOf opc openSc).opc = opc := by decide

/-- Descriptor 0 of the program is a scheduled `TFEED` of slot 1, and it is in the issue queue. -/
def progOne : Store :=
  { prog := Mem.write (Mem.write (Mem.write [] 131088 [0, 0, 0, 0, 0, 0, 1, 0, 64, 0, 0, 0]) 131136 [128, 0, 0, 0, 1, 0]) 131200
      ([0x20, 0, 0, 0] ++ leBytes 4 1000 ++ [0, 0, 0, 0, 1, 0, 0, 8]) }
def bNext : Blk := { bDesc with sched := { on := true, queue := [3000] } }
theorem wit_PortOperationsStart_scheduled :
    progOne.desc 0 0 = some (dOf 0x20 1000) ∧ isScheduled (dOf 0x20 1000) = true ∧ bNext.placeOf progOne (dOf 0x20 1000) = some 0
      ∧ bNext.Issues progOne (dOf 0x20 1000) ∧ bNext.Calm ∧ bNext.shapeCheck (dOf 0x20 1000) = none := by decide

theorem wit_RowTransfersStart :
    bDesc.Calm ∧ bDesc.xfers.length < 16 ∧ (∀ x ∈ bDesc.xfers, x.op ≠ bDesc.opNo) ∧ ∀ opc ∈ [0x10, 0x11], Ready bDesc (dOf opc openSc)
      ∧ isOpenDesc (dOf opc openSc) = true ∧ (bDesc.requester (dOf opc openSc).port (dOf opc openSc).req).queue = [] := by decide

theorem wit_MergeOperationsStart :
    bDesc.Calm ∧ bDesc.sems.length < 8 ∧ (∀ m ∈ bDesc.sems, m.op ≠ bDesc.opNo ∧ ∀ p, bDesc.op? m.op = some p → p.d.opid ≠ 3)
      ∧ bDesc.AllActive ∧ ∀ opc ∈ [0x31, 0x32, 0x33], Ready bDesc (dOf opc openSc)
      ∧ isOpenDesc (dOf opc openSc) = true ∧ (dOf opc openSc).accPort ≠ (dOf opc openSc).port
      ∧ (bDesc.requester (dOf opc openSc).accPort (dOf opc openSc).req).queue.length < 8 := by decide
theorem wit_MergeOperationsStart_preload :
    let d : Desc := { dOf 0x32 openSc with slot := 2, opf := true }
    Ready bDesc d ∧ d.opf = true ∧ ((List.range d.nrows).filter (fun i => (bDesc.tile d.slot).rowValid.getLsbD (d.start + i))).length = 4
      := by decide

theorem wit_SaveAndRestoreDescriptorsStart :
    bDesc.Calm ∧ bDesc.sr.phase = 0 ∧ bDesc.engineFree 7 = true ∧ ({ bDesc with sr := { phase := 2, isSave := true, parts := 9 } } : Blk).Calm ∧ ∀ opc ∈ [0x60, 0x61],
      bDesc.Issues {} (dOf opc openSc) ∧ isOpenDesc (dOf opc openSc) = true
      ∧ (bDesc.requester (dOf opc openSc).port (dOf opc openSc).req).queue = [] := by decide
/-- The image of the context's tiles, a header of 96 bytes and a record of 32 for each of 20 slots, fits in the limit. -/
theorem wit_SaveAndRestoreDescriptorsStart_size :
    let heads := (bDesc.ctxSlots 0).map (fun k => (k, (bDesc.tile k).header (k % 64)))
    roundUp (saveSize heads (saveRange false heads).2) 1024 ≤ (dOf 0x60 openSc).limit := by decide

theorem wit_IssueChecksSuppressOrHold :
    let full : Blk := { bDesc with reqs := [(0, { queue := [1, 2, 3, 4, 5, 6, 7, 8] })] }
    bDesc.Calm ∧ bDesc.Issues {} { dOf 0x20 openSc with nrows := 0 } ∧ emptyDesc { dOf 0x20 openSc with nrows := 0 } = true
    ∧ (full.Calm ∧ full.Issues {} (dOf 0x20 openSc) ∧ emptyDesc (dOf 0x20 openSc) = false
      ∧ 8 ≤ (full.requester (dOf 0x20 openSc).port (dOf 0x20 openSc).req).queue.length)
    ∧ (bDesc.shapeCheck { dOf 0x20 openSc with slot := 2 }).isSome = true := by decide
theorem wit_IssueChecksSuppressOrHold_late :
    let d : Desc := { dOf 0x20 1000 with slot := 14 }
    let b : Blk := { bDesc with tiles := (14, { tE with zread := false, state := .loading }) :: bDesc.tiles }
    b.issuing = true ∧ isScheduled d = true ∧ b.missing {} (b.issueIdx {} d) d = true ∧ b.Calm ∧ b.sems = [] ∧ slotWritten d = none ∧ d.rgrp = 0
    := by decide
/-- A late `TMOVE` from slot 14, which is being written, into slot 12. -/
theorem wit_IssueChecksSuppressOrHold_damage :
    let d : Desc := { dOf 0x40 1000 with slot := 14 }
    let b : Blk := { bDesc with tiles := (14, { tE with zread := false, state := .loading }) :: bDesc.tiles }
    b.issuing = true ∧ isScheduled d = true ∧ b.missing {} (b.issueIdx {} d) d = true ∧ b.Calm ∧ slotWritten d = some 12
      ∧ (b.tile 12).inUse = true := by decide
theorem wit_IssueChecksSuppressOrHold_nothing :
    bConf.Calm ∧ bConf.moving = false ∧ ({ bRun with sched := { ended := true } } : Blk).Calm ∧ ({ bRun with lc := .draining } : Blk).Calm
    := by decide

theorem wit_IssueChecksSuppressOrHold_thread :
    bNext.Calm ∧ bNext.moving = true ∧ bNext.sched.on = true ∧ bNext.replayQ = [] ∧ bNext.reg K.PROG_NOW = 0
      ∧ progOne.desc 0 0 = some (dOf 0x20 1000) ∧ isScheduled (dOf 0x20 1000) = true ∧ bNext.sched.checked ≤ 0
      ∧ bNext.missing progOne 0 (dOf 0x20 1000) = false ∧ bDesc.sched.queue = [] ∧ bDesc.Calm
      ∧ bNext.ticking = true
      ∧ ({ bNext with tiles := [(1, { tE with zread := false, shape := 0x10440, state := .loading })] } : Blk).missing progOne 0
          (dOf 0x20 1000) = true := by decide

/-! ### Witnesses: accesses, open slots, row transfers -/

/-- Slot 3 holds rows 0 to 11 of 768 bytes; slot 4 is being written. -/
def shP : Nat := 0x1840
def tP : Tile := { inUse := true, state := .valid, shape := shP, epoch := 9, rowValid := 0xFFF }
def bPort : Blk :=
  { bRun with force := inForce, tiles := [(3, tP), (4, { tP with state := .loading, rowValid := 0, writers := 1 })] }
def oRead (n : Nat) : Op :=
  { id := 5, d := { opc := 0x20, port := 2, endpt := 1, req := 2, slot := 3, start := 5, nrows := 2, slotCycle := 1000 }, tick := 7,
    base := 1000, n := n, total := 2, srcShape := shP }
def oTake (n : Nat) : Op :=
  { id := 5, d := { opc := 0x22, port := 0, endpt := 2, req := 2, slot := 4, start := 5, nrows := 2, slotCycle := 1000 }, tick := 7,
    base := 1000, n := n, total := 2, dstShape := shP, dests := [(4, 0)] }

theorem wit_ScheduledReadSendsTheStoredRow : ∀ n ∈ [0, 1],
    let b : Blk := { bPort with ops := [oRead n] }
    let o := oRead n
    b.op? 5 = some o ∧ o.opn = false ∧ b.moving = true ∧ o.d.opc = 0x20 ∧ o.taken = false ∧ b.fenced o.d.port = false
      ∧ o.srcShape = (b.seenTile o.d.slot).shape ∧ shapeOk o.srcShape = true ∧ b.rowRead o.d.slot (accessRow o.d o.srcShape o.n) = .stored
      ∧ b.active o.d.port = true ∧ b.active (8 + b.groupOf o.d.slot (accessRow o.d o.srcShape o.n)) = true
      ∧ accessRow o.d o.srcShape o.n < 12 := by decide

theorem wit_ScheduledTakeEntersTheWritePath : ∀ n ∈ [0, 1],
    let b : Blk := { bPort with ops := [oTake n] }
    let o := oTake n
    b.op? 5 = some o ∧ o.opn = false ∧ b.moving = true ∧ o.d.opc = 0x22 ∧ o.taken = false ∧ b.active o.d.port = true
      ∧ b.fenced o.d.port = false ∧ ({ b with regs := [(K.PORT_FENCED, 1)] } : Blk).fenced o.d.port = true
      ∧ o.poison = []
      ∧ takeQuarters o = [0, 1, 2] ∧ converts 0x22 13 = false := by decide
/-- A beat of zeros with good parity and the stamp of the slot. -/
def goodBeat (stamp : Stamp) (sb : List Byte) (qen : Nat) : Beat := mkBeat [] sb stamp qen
theorem wit_ScheduledTakeEntersTheWritePath_beat :
    let b : Blk := { bPort with ops := [oTake 0] }
    (goodBeat ((oTake 0).schedStamp shP) [] 7).stamp = (oTake 0).schedStamp shP
      ∧ b.GoodBeat (goodBeat ((oTake 0).schedStamp shP) [] 7) [0, 1, 2] := by decide

def wRow : RowWrite :=
  { wid := 3, kind := .row, op := 5, slot := 4, row := 11, gen := 0, quarters := [0, 2], payload := [1, 2, 3], sb := [4], due := 0 }
theorem wit_RowWriteStoresItsRow :
    let b : Blk := { bPort with ops := [oTake 0], writes := [wRow] }
    b.writes.find? (fun x => x.wid == wRow.wid) = some wRow ∧ b.Settled ∧ (b.tile wRow.slot).gen = wRow.gen ∧ wRow.leaves = none
      ∧ shapeOk (b.tile wRow.slot).shape = true ∧ b.fourBanks wRow.slot wRow.row
      ∧ (({ b with tiles := [(4, { tP with gen := 1 })] } : Blk).tile wRow.slot).gen ≠ wRow.gen
      ∧ wRow.gen % 2 = 0 ∧ (b.tile wRow.slot).inUse = true ∧ b.mx.waits = [] ∧ b.flt.trWait = []
      ∧ b.active (8 + b.groupOf wRow.slot wRow.row) = true := by decide
/-- A write of a `TTAKE`, whose tile gives the epoch; the last write of a row of a `TRECV`, which commits it; one whose group is Idle. -/
theorem wit_RowWriteStoresItsRow_kinds :
    let b : Blk := { bPort with ops := [{ oTake 0 with d := { (oTake 0).d with opc := 0x51 } }], writes := [{ wRow with completes := true }] }
    let off : Blk := { bPort with ops := [oTake 0], writes := [wRow], pwr := { groupsIdle := 255 } }
    (({ bPort with ops := [oTake 0] } : Blk).op? wRow.op).any (fun o => [0x10, 0x22, 0x32, 0x40, 0x41].contains o.d.opc) = true
      ∧ wRow.kind = .row ∧ (b.op? wRow.op).any (fun o => !tileCommit o.d.opc) = true ∧ b.Settled ∧ b.mx.waits = []
      ∧ off.active (8 + off.groupOf wRow.slot wRow.row) = false ∧ off.op? wRow.op = some (oTake 0) ∧ (oTake 0).opn = false ∧ off.Settled
      ∧ (off.tile wRow.slot).gen = wRow.gen := by decide

def oDone : Op := { oTake 2 with taken := true }
theorem wit_TileCommitMakesRowsValid :
    let b : Blk := { bPort with ops := [oDone] }
    let v : Blk := { bPort with ops := [{ oDone with sums := { overflow := true } }], force := (K.OVF_RETRIES, 0) :: inForce }
    b.op? 5 = some oDone ∧ oDone.d.opc = 0x22 ∧ oDone.dest = oDone.d.slot ∧ b.commitDue oDone = true ∧ b.Calm ∧ oDone.pendingOvf = none ∧ oDone.srcs = []
      ∧ oDone.dests = [(oDone.d.slot, (b.tile oDone.d.slot).gen)] ∧ (b.tile oDone.d.slot).writers = 1
      ∧ (b.tile oDone.d.slot).state = .loading ∧ oDone.sums.overflow = false
      ∧ v.commitDue { oDone with sums := { overflow := true } } = true ∧ v.Calm ∧ v.cfg K.OVF_RETRIES = 0 := by decide
/-- A `TCONV` from slot 3 into slot 4, and a `TMERGE` into slot 4, whose writes are done. -/
theorem wit_TileCommitMakesRowsValid_other :
    let c : Op := { oDone with d := { oDone.d with opc := 0x41, slot := 3, dst := 4 } }
    let m : Op := { oDone with d := { oDone.d with opc := 0x32 } }
    let b (o : Op) : Blk := { bPort with ops := [o], sems := if o.d.opc = 0x32 then [{ op := 5, live := true, closed := [(0, 1)], closedAll := true }] else [] }
    ∀ o ∈ [c, m], (b o).op? 5 = some o ∧ o.d.opc ∈ [0x22, 0x32, 0x41] ∧ (b o).commitDue o = true ∧ (b o).Calm ∧ o.srcs = [] ∧ o.pendingOvf = none
      ∧ o.dests = [(o.dest, ((b o).tile o.dest).gen)] ∧ ((b o).tile o.dest).writers = 1 ∧ ((b o).tile o.dest).state = .loading := by decide

def oOvf : Op := { oDone with sums := { overflow := true }, pendingOvf := some 3, sigma := -127 }
def bReplay (l : Nat) : Blk :=
  { bPort with
    ops := [oOvf], replayQ := [5], tiles := [(4, { tP with state := .overflowed })], sched := {},
    tick := { tRun with lcyc := l, unheld := l } }
theorem wit_ReplayStartsOrGivesUp :
    let span (b : Blk) : Nat × Nat := groupSpan b (fun k => (b.tile k).shape) (b.groupOfOp {} oOvf)
    (bReplay 27500).replayReady = true ∧ (bReplay 27500).replayQ = [oOvf.id] ∧ (bReplay 27500).op? 5 = some oOvf ∧ oOvf.d.opc = 0x22
      ∧ (bReplay 27500).tick.lcyc + (span (bReplay 27500)).2 ≤ (bReplay 27500).cfg K.TICK_LEN - (bReplay 27500).cfg K.GUARD
      ∧ (bReplay 28999).replayReady = true
      ∧ (bReplay 28999).cfg K.TICK_LEN - (bReplay 28999).cfg K.GUARD < (bReplay 28999).tick.lcyc + (span (bReplay 28999)).2 := by decide

def oOpen : Op := { oRead 1 with opn := true, d := { (oRead 1).d with slotCycle := 0x1FFFFF, deadline := 500 } }
def rOpen : Requester := { queue := [5], aging := 3, missed := true }
def bRound : Blk := { bPort with ops := [oOpen], reqs := [(34, rOpen)], sched := {} }
theorem wit_RoundGrantsTheOneCandidate :
    bRound.Calm ∧ bRound.moving = true ∧ bRound.inGuard = false ∧ bRound.inExt = false ∧ bRound.sched.on = false
      ∧ bRound.ops = [oOpen] ∧ oOpen.role = .main ∧ oOpen.opn = true ∧ oOpen.d.opc = 0x20 ∧ oOpen.taken = false ∧ oOpen.d.port < 4
      ∧ oOpen.d.req < 14 ∧ bRound.reqs = [(16 * oOpen.d.port + oOpen.d.req, rOpen)] ∧ rOpen.queue = [oOpen.id] ∧ rOpen.cut = false
      ∧ rOpen.missed = true ∧ bRound.outs = [] ∧ bRound.fixed = [] ∧ bRound.withdrawn = [] ∧ oOpen.d.endpt ≠ 3 ∧ oOpen.d.endpt ≠ 15
      ∧ bRound.epOut oOpen.d.endpt = false ∧ bRound.fenced oOpen.d.port = false
      ∧ oOpen.releasedAt ≤ bRound.tick.wall ∧ oOpen.srcShape = (bRound.seenTile oOpen.d.slot).shape ∧ shapeOk oOpen.srcShape = true
      ∧ bRound.rowRead oOpen.d.slot (accessRow oOpen.d oOpen.srcShape oOpen.n) = .stored ∧ bRound.active oOpen.d.port = true
      ∧ bRound.active (8 + bRound.groupOf oOpen.d.slot (accessRow oOpen.d oOpen.srcShape oOpen.n)) = true := by decide

/-- A row beat, and a command beat of transfer 9, in the return buffer of endpoint `e`. -/
def outRow (e : Nat) : OutBeat := { endpt := e, port := 2, op := 5, beat := {}, due := 4000, opn := true }
def outCmd : OutBeat := { endpt := 9, port := 3, op := 5, beat := { sb := [1] }, due := 4000, cmd := some 9, opn := true }
theorem wit_BuffersHandshakesAndPenalties :
    let r : Blk := { bPort with ops := [oOpen], outs := [outRow 1] }
    let c : Blk := { bPort with outs := [outCmd], xfers := [{ tn := 9, op := 5, store := false, cfirst := 0 }],
                                ops := [{ oOpen with d := { opc := 0x10 } }] }
    (({ bPort with reqs := [(34, { cut := true })] } : Blk).requester 2 2).cut = true
    ∧ (r.oldestOut 1 = some (outRow 1) ∧ r.busLow 1 = false ∧ r.Calm ∧ (outRow 1).seq = none ∧ (outRow 1).cmd = none
      ∧ r.op? 5 = some oOpen ∧ oOpen.d.opc = 0x20 ∧ oOpen.taken = false)
    ∧ (let f : Blk := { r with ops := [{ oOpen with taken := true }] }
       f.oldestOut 1 = some (outRow 1) ∧ f.busLow 1 = false ∧ f.Calm ∧ f.writes = []
         ∧ (dropOut (outRow 1) f.outs).all (fun y => y.op != oOpen.id) = true)
    ∧ (c.oldestOut 9 = some outCmd ∧ c.busLow 9 = false ∧ c.Calm ∧ outCmd.seq = none ∧ outCmd.cmd = some 9
      ∧ byteAt outCmd.beat.sb 0 ≠ 3)
    ∧ (bPort.ticking = true ∧ bPort.busLow 2 = false ∧ bPort.busLow 4 = false ∧ bPort.unclaimed 4 {} = true
      ∧ ({ bPort with pwr := { portsIdle := 16 } } : Blk).busLow 2 = true)
    ∧ (r.ticking = true ∧ r.busDark 1 = false ∧ r.outs.filter (fun y => y.opn && y.endpt == 1) = [outRow 1] ∧ oOpen.role = .main ∧ oOpen.dests = []
      ∧ oOpen.srcs = [] ∧ r.xfers.all (fun y => y.op != oOpen.id) = true) := by decide

/-- A transfer of rows 2 to 11 of slot 3, at its fifth row. -/
def oXfer (st : Bool) : Op :=
  { id := 5, opn := true, tick := 7, dests := if st then [] else [(3, 0)], dstShape := 0x440, srcShape := 0x440, total := 10, n := 4,
    d := { opc := if st then 0x11 else 0x10, port := 3, endpt := 8, req := 2, slot := 3, start := 2, nrows := 10, base := 4096,
           stride := 128, deadline := 300, slotCycle := 0x1FFFFF } }
def xRow (st : Bool) : Xfer := { tn := 9, op := 5, store := st, order := some 3, cfirst := 2, delivered := true }
def bXfer (st : Bool) (x : Xfer) : Blk :=
  { bRun with ops := [oXfer st], xfers := [x], tiles := [(3, { tP with state := .loading, writers := 1, shape := 0x440, rowValid := 3 })],
              reqs := [(50, { queue := [5] })] }
abbrev CarriesRows (st : Bool) (x : Xfer) : Prop :=
  (bXfer st x).Calm ∧ (bXfer st x).ticking = true ∧ (bXfer st x).busLow 8 = false
    ∧ (bXfer st x).xfers.filter (fun y => y.tn == 9) = [x] ∧ x.orphan = false ∧ (bXfer st x).op? x.op = some (oXfer st)
    ∧ ((oXfer st).d.opc = 0x10 ∨ (oXfer st).d.opc = 0x11) ∧ (oXfer st).role = .main
    ∧ (∀ y ∈ (bXfer st x).xfers, y.op = (oXfer st).id → y.tn = 9) ∧ x.store = ((oXfer st).d.opc == 0x11) ∧ (oXfer st).total = (oXfer st).d.nrows
    ∧ (x.store = true → (oXfer st).srcGen = ((bXfer st x).tile 3).gen)
    ∧ (x.store = false → (oXfer st).dests = [(3, ((bXfer st x).tile 3).gen)])

theorem wit_FaultBeatsSuspendResumeOrAbandon : ∀ st ∈ [true, false],
    let w := xRow st
    let p : Xfer := { w with suspended := some 4, faulted := some 4, order := none }
    let a : Xfer := { w with aborting := some 1, abortSent := true }
    (∀ x ∈ [w, a], CarriesRows st x ∧ x.suspended = none ∧ x.lowRow (oXfer st) ≤ (bXfer st x).highRow (oXfer st) x
      ∧ (bXfer st x).highRow (oXfer st) x < (oXfer st).rowEnd)
    ∧ (CarriesRows st p ∧ p.aborting = none ∧ p.suspended = some 4) := by decide

theorem wit_StoredRowsAndAbortsEndTransfers : ∀ st ∈ [true, false],
    let w := xRow st
    let c : Xfer := { w with aborting := some 1, abortSent := true }
    let r : Xfer := { w with aborting := some 0, abortSent := true }
    let e : Xfer := { r with retries := 200 }
    let inside (x : Xfer) : Prop := x.lowRow (oXfer st) ≤ (bXfer st x).highRow (oXfer st) x
      ∧ (bXfer st x).highRow (oXfer st) x < (oXfer st).rowEnd
    ((bXfer st w).xfers.all (fun y => y.tn != 8) = true)
    ∧ (CarriesRows st w ∧ w.aborting = none ∧ w.suspended = none
      ∧ ((bXfer st w).currentXfer w.store).any (fun y => y.tn == 9) = true ∧ (oXfer st).rowEnd = 12)
    ∧ (CarriesRows st c ∧ c.aborting = some 1 ∧ inside c)
    ∧ (CarriesRows st r ∧ r.aborting = some 0 ∧ r.suspended = none ∧ r.faultK = none ∧ r.retries < (bXfer st r).cfg K.LS_RETRIES
      ∧ inside r)
    ∧ (CarriesRows st e ∧ e.aborting.isSome = true ∧ e.aborting ≠ some 1 ∧ (bXfer st e).cfg K.LS_RETRIES ≤ e.retries
      ∧ e.suspended = none ∧ e.faultK = none ∧ inside e)
    ∧ (bXfer st w).writes = [] := by decide

/-! ### Witnesses: the merge unit -/

/-- An open operation of the merge unit on slots 3 and 4, its state `m`, its tiles and its requester. -/
def oSem (opc choices : Nat) : Op :=
  { id := 5, opn := true, tick := 7, dests := [(3, 0), (4, 0)], dstShape := 0x440, total := 4,
    d := { opc := opc, port := 5, endpt := 4, req := 2, slot := 3, start := 0, nrows := 4, opid := 77, nexp := 4, bktTiles := 1, cap := 2,
           resBase := 20, resTiles := 1, dstTiles := 2, choices := choices, slotCycle := 0x1FFFFF, deadline := 5000 } }
def tW : Tile := { inUse := true, state := .loading, writers := 1, shape := 0x440, epoch := 9 }
def bSem (opc choices : Nat) (m : SemOp) : Blk :=
  { bRun with ops := [oSem opc choices], sems := [m], reqs := [(82, { queue := [5] })], force := (K.LSC, 4) :: inForce,
              tiles := (List.range 30).map (fun i => (i, tW)) }
/-- A beat of zeros of kind `kind` for operation 77 with good parity, its two sideband halfwords and its row, tag and epoch. -/
def semBeat (kind x y row tag ep : Nat) (st : Stamp) (qen : Nat) : Beat :=
  mkBeat [] (List.replicate 64 0 ++ leBytes 8 st.toNat ++ leBytes 4 tag ++ leBytes 4 0 ++ leBytes 2 ep ++ List.replicate 14 0
    ++ [BitVec.ofNat 8 kind, 0, 77, 0] ++ leBytes 2 x ++ leBytes 2 y ++ [BitVec.ofNat 8 row]) st qen
def mRow : MRow := { slot := 3, row := 0 }
def mOne : SemOp := { op := 5, live := true, rows := [mRow, { mRow with row := 1 }] }

/-- A data beat that is granted now: the take `c` of `Blk.SemData` is the one that the beat offers. -/
abbrev TakesData (b : Blk) (bt : Beat) (kind : Nat) (o : Op) (m : SemOp) : Prop :=
  b.SemBeat bt kind o m ∧ m.readyRows b.tick.wall = [] ∧ b.semOpen o m = true ∧ b.Calm ∧ b.badStamp bt.stamp = false
    ∧ stampBad bt = false ∧ (semOffer b o m bt).any (fun c => decide (b.AloneOn {} 5 [{ endpt := 4, beat := bt }] c)) = true
theorem takesData_semData {b : Blk} {bt : Beat} {kind : Nat} {o : Op} {m : SemOp} (h : TakesData b bt kind o m) :
    ∃ c, b.SemData {} bt kind o m c := by
  obtain ⟨h1, h2, h3, h4, _, _, h7⟩ := h
  cases hc : semOffer b o m bt with
  | none => simp [hc] at h7
  | some c => exact ⟨c, h1, hc, h2, h3, h4, by simpa only [hc, Option.any_some, decide_eq_true_eq] using h7⟩

theorem wit_MergeFoldsContributionsIntoRows_leaf :
    let b := bSem 0x32 2 mOne
    let bt := semBeat 1 3 0 1 5 9 bRun.stamp 1
    TakesData b bt 1 (oSem 0x32 2) mOne ∧ b.GoodBeat bt [0] ∧ (b.tile 3).gen = (oSem 0x32 2).genOf 3
      ∧ mOne.rows.find? (fun x => x.row == (byteAt bt.sb 104).toNat) = some { mRow with row := 1 }
      ∧ fieldAt bt.sb 100 2 % 4096 = 3 ∧ b.cfg K.LSC = 4
      ∧ ceilDiv (4 * elemsPerRow (shFmt (oSem 0x32 2).dstShape) (shRB (oSem 0x32 2).dstShape)) 256 = 1
      ∧ (treeNode [] 13 0 4 [3]).1 = false ∧ b.refused ≠ some 5 ∧ mRow.done = false ∧ mRow.result = none := by decide +kernel
theorem wit_MergeFoldsContributionsIntoRows_old :
    let b := bSem 0x32 2 mOne
    let bt := semBeat 1 4 0 0 5 9 bRun.stamp 1
    TakesData b bt 1 (oSem 0x32 2) mOne ∧ b.cfg K.LSC ≤ fieldAt bt.sb 100 2 % 4096 := by decide +kernel
theorem wit_MergeFoldsContributionsIntoRows_close :
    let m : SemOp := { op := 5, live := true, rows := [mRow] }
    (bSem 0x32 2 mOne).SemBeat (semBeat 2 1 2 0 0 9 bRun.stamp 0) 2 (oSem 0x32 2) mOne
    ∧ (mOne.rows.all (fun r => r.done || r.result.isSome || (!(treeNode [(1, 2)] 13 0 4 (r.leaves.map (fun l => l.1))).1
        && decide (addsMade 4 [(1, 2)] r ≤ addsMade 4 [] r))) = true
      ∧ mOne.rows.Pairwise (fun x y => x.slot ≠ y.slot ∨ x.row ≠ y.row))
    ∧ ((bSem 0x32 2 m).SemBeat (semBeat 2 0 3 0 0 9 bRun.stamp 0) 2 (oSem 0x32 2) m ∧ mRow.leaves = [] ∧ mRow.done = false
      ∧ mRow.result = none ∧ mRow.needsPre = false ∧ (oSem 0x32 2).d.opf = false ∧ covered [(0, 3)] 0 4 = true)
    ∧ (bSem 0x32 2 mOne).SemBeat (semBeat 2 2 1 0 0 9 bRun.stamp 0) 2 (oSem 0x32 2) mOne
    ∧ (bSem 0x32 2 mOne).SemBeat (semBeat 2 1 4 0 0 9 bRun.stamp 0) 2 (oSem 0x32 2) mOne := by decide +kernel
theorem wit_MergeFoldsContributionsIntoRows_root :
    let r : MRow := { mRow with result := some [0, 0x3F800000], ready := some 4990 }
    let m : SemOp := { op := 5, live := true, rows := [r] }
    let b := bSem 0x32 2 m
    let o := oSem 0x32 2
    b.op? 5 = some o ∧ o.d.opc = 0x32 ∧ b.sems.find? (fun x => x.op == 5) = some m
      ∧ (m.readyRows b.tick.wall).find? (fun x => o.rowNo x == 0) = some r ∧ (b.setSem { m with rows := r :: [] }).Calm
      ∧ (b.setSem { m with rows := r :: [] }).AloneOn {} 5 [] (rootCand b o r) ∧ m.rows.filter (fun x => o.rowNo x != 0) = []
      ∧ r.result = some [0, 0x3F800000] ∧ b.flt.badConv = none
      ∧ b.active (8 + b.groupOf r.slot r.row) = true := by decide +kernel
/-- The buffer rows are all in use, and a contribution needs one more; past the deadline, and without one. -/
def mFull : SemOp :=
  { op := 5, live := true, rows := (List.range 32).map (fun i => { mRow with row := i, adds := List.replicate 32 6000 }) }
set_option maxRecDepth 100000 in
theorem wit_MergeFoldsContributionsIntoRows_refused :
    let o (n : Nat) : Op := { oSem 0x32 2 with d := { (oSem 0x32 2).d with deadline := n } }
    let b (n : Nat) : Blk := { bSem 0x32 2 mFull with ops := [o n] }
    let bt := semBeat 1 3 0 1 5 9 bRun.stamp 1
    ∀ n ∈ [20, 0x1FFFFF], (b n).SemBeat bt 1 (o n) mFull ∧ takeContribution (b n) (o n) mFull bt false = none
      ∧ (b n).NoneOn {} 5 [{ endpt := 4, beat := bt }] ∧ (b n).unrefused.Calm ∧ (b n).refused = none ∧ (b n).tick.holdOut = none := by decide +kernel
set_option maxRecDepth 100000 in
/-- The same, refused before. -/
theorem wit_MergeFoldsContributionsIntoRows_again :
    let o : Op := { oSem 0x32 2 with d := { (oSem 0x32 2).d with deadline := 20 } }
    let b : Blk := { bSem 0x32 2 mFull with ops := [o], refused := some 5, tick := { bRun.tick with holdOut := some 4 } }
    let bt := semBeat 1 3 0 1 5 9 bRun.stamp 1
    b.SemBeat bt 1 o mFull ∧ takeContribution b o mFull bt false = none ∧ b.NoneOn {} 5 [{ endpt := 4, beat := bt }] ∧ b.unrefused.Calm
      ∧ b.refused = some o.id ∧ b.tick.holdOut.isSome = true := by decide +kernel

/-- A key above, and one below, the previous key; a claimed row. -/
def mRoute : SemOp := { op := 5, live := true, prevKey := some (bRun.stamp.toNat, 3, 0), claimed := [(3, 0)], drops := [(1, 3)] }
theorem wit_RouteRowsGoToTheirBuckets :
    let b := bSem 0x31 2 mRoute
    let o := oSem 0x31 2
    let bt := semBeat 3 1 3 0 5 9 bRun.stamp 1
    let res := semBeat 3 2 3 0 63 9 bRun.stamp 1
    (TakesData b bt 3 o mRoute ∧ b.GoodBeat bt [0] ∧ shQuarters (b.tile 6).shape = 1 ∧ b.active (8 + b.groupOf 6 1) = true
      ∧ mRoute.prevKey.any (fun p => routeBelow p (bt.stamp.toNat, 5, 0)) = false ∧ mRoute.claimed.contains (6, 1) = false
      ∧ (3 : Nat) < o.d.nexp ∧ (1 : Nat) < o.d.cap)
    ∧ (TakesData b res 3 o mRoute ∧ b.GoodBeat res [0] ∧ o.d.cap ≤ 2 ∧ b.active (8 + b.groupOf 20 63) = true ∧ 63 / 64 < o.d.resTiles)
    := by decide +kernel
theorem wit_RouteRowsGoToTheirBuckets_faults :
    let b := bSem 0x31 2 mRoute
    let o := oSem 0x31 2
    (TakesData b (semBeat 3 1 3 0 2 9 bRun.stamp 1) 3 o mRoute
      ∧ mRoute.prevKey.any (fun p => routeBelow p (bRun.stamp.toNat, 2, 0)) = true)
    ∧ (TakesData b (semBeat 3 0 0 0 5 9 bRun.stamp 1) 3 o mRoute ∧ mRoute.claimed.contains (3, 0) = true ∧ (0 : Nat) < o.d.cap)
    ∧ (TakesData b (semBeat 3 0 4 0 5 9 bRun.stamp 1) 3 o mRoute ∧ o.d.nexp ≤ 4)
    ∧ (b.SemBeat (semBeat 4 0 0 0 0 9 bRun.stamp 0) 4 o mRoute ∧ b.writes.any (fun w => w.op == o.id) = false ∧ mRoute.rows = []
      ∧ o.role = .main ∧ b.AllActive)
    ∧ ({ b with writes := [wRow] } : Blk).writes.any (fun w => w.op == o.id) = true := by decide +kernel

theorem wit_ReturnRowsFoldByTag :
    let m : SemOp := { op := 5, live := true }
    let b := bSem 0x33 2 m
    let o := oSem 0x33 2
    let bt := semBeat 5 0 0 0 (127 + 2 ^ 24) 9 bRun.stamp 1
    (TakesData b bt 5 o m ∧ bt.stamp.toNat = fieldAt bt.sb 64 8 ∧ 127 / 64 < o.d.dstTiles ∧ fieldAt bt.sb 80 2 = (b.tile 4).epoch
      ∧ tickDiff b.stamp bt.stamp = 0 ∧ b.GoodBeat bt [0] ∧ shQuarters (b.tile 4).shape = 1
      ∧ m.rows.all (fun r => r.slot != 4 || r.row != 63) = true ∧ 2 ≤ o.d.choices ∧ bits (127 + 2 ^ 24) 27 24 = 1 ∧ 1 < o.d.choices
      ∧ (b.setSem { m with rows := [{ mRow with slot := 4, row := 63, leaves := [(1, [])] }] }).bufUsed ≤ 1024)
    ∧ ((bSem 0x33 1 m).adderBusy = false ∧ (oSem 0x33 1).d.choices = 1 ∧ b.active (8 + b.groupOf 3 5) = true
      ∧ TakesData (bSem 0x33 1 m) (semBeat 5 0 0 0 5 9 bRun.stamp 1) 5 (oSem 0x33 1) m) := by decide +kernel
theorem wit_ReturnRowsFoldByTag_discards :
    let m : SemOp := { op := 5, live := true }
    let l : SemOp := { op := 5, live := true, rows := [{ mRow with leaves := [(0, [4])] }] }
    let b := bSem 0x33 2 m
    let o := oSem 0x33 2
    (TakesData b (semBeat 5 0 0 0 5 8 bRun.stamp 1) 5 o m ∧ (8 : Nat) ≠ (b.tile 3).epoch)
    ∧ (let p : Blk := { b with tiles := (3, { tW with epoch := 10 }) :: b.tiles, seen := [(3, tW)] }
       TakesData p (semBeat 5 0 0 0 5 9 bRun.stamp 1) 5 o m ∧ (p.seenTile 3).epoch = 9 ∧ (p.tile 3).epoch ≠ 9 ∧ tickDiff p.stamp p.stamp = 0)
    ∧ (TakesData b (semBeat 5 0 0 0 5 9 (mkStamp 8 100 0) 1) 5 o m ∧ tickDiff b.stamp (mkStamp 8 100 0) < 0)
    ∧ (b.SemBeat (semBeat 6 0 0 0 0 9 bRun.stamp 0) 6 o m ∧ m.rows = [] ∧ m.uses = [] ∧ b.writes = [] ∧ o.role = .main
      ∧ b.AllActive)
    ∧ ((bSem 0x33 2 l).SemBeat (semBeat 6 0 0 0 0 9 bRun.stamp 0) 6 o l ∧ (∀ r ∈ l.rows, r.done = false ∧ r.ready = none ∧ r.result = none
      ∧ r.leaves ≠ [])) := by decide +kernel

/-! ### Witnesses: the service matrix and the ring -/

theorem wit_MatrixBurstsReachTheirTargets :
    let u (m a : Nat) : Burst := { master := m, addr := a, size := 4, beats := 2 }
    let l : Burst := { u 1 0x200000 with lock := true }
    let w (n : Nat) : Burst := { master := 1, write := true, addr := 0x200000, size := 4, beats := 1, data := List.replicate n (some 7) }
    let x : Burst := { w 4 with addr := 0x100000 }
    let path (b : Blk) (u : Burst) (t : Nat) (refused : Bool) : Prop := burstOk u = true ∧ b.mxHeld u.master = false ∧ b.mx.waits = []
      ∧ b.mx.remapWait = false ∧ b.flt.trWait = [] ∧ b.mxEnabled u.master = true ∧ (b.mxRouteNow u true).any (fun p => p.1 == t && (b.lockOf t).isNone
        && decide (u.addr - p.2.1 + burstLen u ≤ p.2.2) && (!u.write || b.writeRefused u t (u.addr - p.2.1) (burstLen u) == refused)) = true
    path bConf (u 1 0x200000) 3 false ∧ path bConf l 3 false ∧ path bConf (w 4) 3 false ∧ path bConf (w 0) 3 false
      ∧ path bConf (u 1 0x300000) 4 false ∧ path bConf (u 1 0x400000) 5 false ∧ path bConf x 1 true ∧ (u 1 0x200000).addr / 4096 = ((u 1 0x200000).addr + 7) / 4096
      ∧ (burstOk (u 1 0x2000000) = true ∧ bConf.mxRouteNow (u 1 0x2000000) false = none) := by decide

theorem wit_MatrixTimeoutsAbortAndBreakLocks :
    let w (m : Nat) : MxWait := { burst := { master := m, addr := 0x100000, size := 4, beats := 2 }, since := 3, why := 1 }
    (∀ m < 6, let b : Blk := { bRun with mx := { waits := [w m] } }
      b.mx.waits = [w m] ∧ b.flt.trWait = [] ∧ b.mx.freed = [] ∧ (w m).burst.master < 6 ∧ (w m).why ≠ 4 ∧ (w m).why ≠ 6 ∧ (w m).behalf = false
        ∧ b.mx.locks.all (fun l => l.2.1 != (w m).burst.master && ((w m).burst.master != 0 || l.2.1 != 1)) = true ∧ b.lc ≠ .off)
    ∧ ({ bRun with sr := { phase := 2 } } : Blk).sr.phase ≠ 0
    ∧ (({ bRun with ring := { queue := [.expeditedRead 1 0x2000 1] } } : Blk).ring.queue = [.expeditedRead 1 0x2000 1])
    ∧ (let b : Blk := { bConf with mx := { locks := [(9, 2, 4)] } }
       b.mx.waits = [] ∧ b.flt.trWait = [] ∧ b.lockOf 9 = some (9, 2, 4)) := by decide

theorem wit_FramesAreForwardedCountedOrAnswered :
    let own : List Byte := [0, Config.nodeAddr]
    let mine : List Byte := [Config.nodeAddr, Config.nodeAddr + 1]
    let other : List Byte := [Config.nodeAddr + 1, Config.nodeAddr + 1]
    State.reset.blk.lc = .off ∧ bConf.lc ≠ .off ∧ byteAt own 1 = Config.nodeAddr
      ∧ byteAt mine 1 ≠ Config.nodeAddr ∧ byteAt mine 0 = Config.nodeAddr ∧ byteAt other 0 ≠ Config.nodeAddr
      ∧ bConf.ring.forward.length < 2 ∧ bConf.pins.bridgeOn = true
      ∧ ({ bConf with ring := { forward := [[1], [2]] } } : Blk).ring.forward = [[1], [2]] := by
  refine ⟨rfl, by decide, rfl, ?_, rfl, ?_, by decide, rfl, rfl⟩ <;> simp [byteAt]
set_option maxRecDepth 20000 in
theorem wit_FramesAreForwardedCountedOrAnswered_crc :
    let f : List Byte := [5, 6, 0x10, 0, 0x17, 0x10, 0, 0]
    let g := f ++ leBytes 2 (crc16 f)
    bConf.ringUp = true ∧ crc16 (g.take (g.length - 2)) = fieldAt g (g.length - 2) 2 ∧ (byteAt g 2).toNat % 16 = 0
      ∧ crc16 (f.take 6) ≠ fieldAt f 6 2 ∧ 2 ≤ g.length
      ∧ ({ bConf with regs := [(K.HEARTBEAT_TICKS, 3)] } : Blk).rw K.HEARTBEAT_TICKS ≠ 0 := by decide

theorem wit_FramesAreCheckedByTheirCrc :
    let f : List Byte := [Config.nodeAddr + 1, Config.nodeAddr + 1]
    bConf.lc ≠ .off ∧ bConf.pins.ringLow = false ∧ bConf.ring.fenced = false ∧ bConf.ring.forward.length < 2
      ∧ bConf.pins.bridgeOn = true ∧ byteAt f 1 ≠ Config.nodeAddr ∧ byteAt f 0 ≠ Config.nodeAddr := by
  refine ⟨by decide, rfl, rfl, by decide, rfl, ?_, ?_⟩ <;> simp [byteAt]
set_option maxRecDepth 20000 in
theorem wit_FramesAreCheckedByTheirCrc_wrong :
    let f : List Byte := [5, 6, 0x10, 0, 0x17, 0x10, 0, 0, 0, 0]
    ¬f.length < 2 ∧ crc16 (f.take (f.length - 2)) ≠ fieldAt f (f.length - 2) 2 := by decide

/-! ### Witnesses: numbers and formats -/

/-- 1.0, the least subnormal and the largest finite number; an infinity and a NaN. -/
theorem wit_Fp32SumsAreRoundedToNearestEven :
    fp32Units 0x3F800000 = some (2 ^ 149) ∧ fp32Units 1 = some 1 ∧ fp32Units 0x7F7FFFFF = some ((2 ^ 24 - 1) * 2 ^ 253)
      ∧ fp32Units 0x80000000 = some 0 ∧ fp32Units 0xFF7FFFFF = some (-((2 ^ 24 - 1) * 2 ^ 253))
      ∧ decodeElem 0 0x7F800000 = .inf false ∧ decodeElem 0 0xFF800000 = .inf true ∧ decodeElem 0 0xFFFFFFFF = .nan := by decide
/-- A row of 960 bytes holds 1,280 elements (R62); one of 992, 1,056 or 0 bytes is not allowed. -/
theorem wit_MxFp6RowsAreMultiplesOf96 :
    shFmt 0x271E40 = 7 ∧ shapeOk 0x271E40 = true ∧ shRB 0x271E40 = 960 ∧ elemsPerRow 7 960 = 1280 ∧ shFmt 0x281F40 = 8
      ∧ (∀ w ∈ [0x281F40, 0x282140, 0x280040], shFmt w = 8 ∧ (List.range 11).all (fun k => k == 0 || shRB w != 96 * k) = true) := by decide
/-- A program of one `TCFG` of an MXFP6 tile with rows of 992 bytes. -/
def progSix : Store :=
  { prog := Mem.write (Mem.write (Mem.write [] 131088 [0, 0, 0, 0, 0, 0, 1, 0, 64, 0, 0, 0]) 131136 [128, 0, 0, 0, 1, 0]) 131200
      ([0x01, 1, 0, 0, 0, 0, 0, 0, 0, 0, 0, 0, 3, 0, 0, 0] ++ leBytes 4 0x281F40) }
theorem wit_MxFp6RowsAreMultiplesOf96_image :
    let d := decodeDesc (progSix.img (progSix.progOff 0 + 32 * 0) 32)
    let b : Blk := { bConf with regs := [(K.IMAGE_STATE, 1)] }
    b.reg K.IMAGE_STATE = 1 ∧ b.pins.invalidate = false ∧ 0 < progSix.progs ∧ 0 < progSix.progLen 0 ∧ d.opc = 0x01
      ∧ shFmt d.shape = 8 ∧ shRB d.shape = 992 := by decide

/-! ### Witnesses: the dictionary -/

theorem wit_UnknownEntriesAreRefused :
    bConf.Calm ∧ bConf.Serving ∧ bConf.ring.seg = none ∧ (255 : Nat) < 256 ∧ objects.any (fun o => o.1 == 0x9FFF) = false
      ∧ (0xA000 : Nat) ≤ 0xA000 ∧ objects.any (fun o => o.1 == 0x2000) = true ∧ entryAt (256 * 0x2000 + 255) = none := by decide

/-- A read-only, a write-only, a configuration and a domain entry. -/
theorem wit_RequestsAnswerOrAbort :
    bConf.Calm ∧ bConf.Serving ∧ ({ bConf with pins := { bConf.pins with ringLow := true } } : Blk).ringUp = false
      ∧ ({ bConf with pins := { bConf.pins with ringLow := true } } : Blk).Calm ∧ bConf.sr.phase = 0 ∧ bConf.pins.bist = 0
      ∧ bConf.pwr.waitAck = none ∧ bRun.Calm ∧ bRun.Serving ∧ bRun.lc ≠ .configured
      ∧ (entryAt K.TICK_LEN).any (fun e => e.acc == .cfg && e.typ == .uns && e.lo == 4 && !e.rng.ok 0) = true
      ∧ (entryAt K.EH_TOTAL).any (fun e => e.acc == .ro && e.typ == .uns) = true
      ∧ (entryAt K.RUN).any (fun e => e.acc == .wo) = true
      ∧ (entryAt K.IMAGE_LO).any (fun e => e.acc != .wo && e.typ == .domain) = true
      ∧ bConf.mx.uncommitted.contains K.TICK_LEN = false
      ∧ ({ bConf with mx := { uncommitted := [K.TICK_LEN] } } : Blk).mx.uncommitted.contains K.TICK_LEN = true := by decide
theorem wit_RequestsAnswerOrAbort_wait :
    let q (n : Nat) : Blk := { bConf with ring := { queue := List.replicate n .heartbeat } }
    let l : Blk := { bConf with mx := { locks := [(5, 2, 3)] } }
    ((q 1).ringUp = true ∧ (q 1).ring.now = false ∧ (q 1).ring.queue ≠ [] ∧ (q 3).ring.queue.length < 4 ∧ 4 ≤ (q 4).ring.queue.length)
    ∧ (l.ringUp = true ∧ l.ring.now = false ∧ l.ring.queue = [] ∧ (entryAt K.TICK_LEN).any hasRecord = true
      ∧ l.lockOf 5 = some (5, 2, 3)) := by decide

/-- A segmented read with its last segment to come, and a segmented write at its start. -/
def gRead : Seg := { node := 1, index := 0x2700, sub := 0x10, read := true, size := 32, data := [], pos := 24, toggle := true }
def gWrite : Seg := { node := 1, index := 0x2F00, sub := 10, read := false, size := 12 }
theorem wit_SegmentedTransfersMoveEightBytes :
    let o (g : Seg) : Blk := { bConf with ring := { seg := some g } }
    bConf.Serving ∧ bConf.Calm ∧ (o gRead).Serving ∧ (o gRead).Calm ∧ (o gRead).ring.seg = some gRead ∧ gRead.read = true
      ∧ liveEntry (256 * gRead.index + gRead.sub) = none ∧ (o gWrite).ring.seg = some gWrite ∧ gWrite.read = false
      ∧ gWrite.toggle = false ∧ gWrite.data.length + 8 < gWrite.size ∧ bConf.ring.seg = none
      ∧ (entryAt K.IMAGE_LO).any (fun e => e.acc == .cfg && e.typ == .domain && decide (e.lo ≤ e.hi)) = true
      ∧ liveEntry K.IMAGE_LO = none ∧ bConf.mx.uncommitted.contains K.IMAGE_LO = false ∧ bConf.reg K.IMAGE_STATE ≠ 1 := by decide

theorem wit_EventsEnterTheHistory :
    let b (n : Nat) : Blk := { bBoot 1 with regs := [(K.EH_NEXT, n)] }
    (b 1).lc = .boot ∧ (b 1).reg K.EH_NEXT = 1 ∧ (b 16).reg K.EH_NEXT = 16 ∧ (b 1).ring.fenced = false ∧ (b 1).pins.ringLow = false
      ∧ (b 1).ring.emcy.length < 8 ∧ 8 ≤ (List.replicate 8 ([] : List Byte)).length := by decide

theorem wit_PlainWritesAreStored :
    bConf.Calm ∧ bConf.Serving ∧ bConf.lc = .configured
      ∧ (entryAt K.TICK_LEN).any (fun e => e.acc == .cfg && e.typ == .uns && e.rng.ok 100000 && decide (100000 < 256 ^ e.lo)) = true
      ∧ (entryAt (K.REQ_BIAS + 95)).any (fun e => e.typ == .int && e.rng.ok (ofSigned 32 (-2097151)) == true
          && decide (ofSigned 32 (-2097151) < 256 ^ e.lo)) = true
      ∧ (entryAt K.ECC_INJECT).any (fun e => e.acc == .cfg && e.rng.ok 17) = true := by decide

theorem wit_ImagesAreWrittenLoadedAndValidated :
    bConf.Calm ∧ bConf.ringUp = true ∧ bConf.ring.seg = none ∧ bConf.lc = .configured ∧ bConf.reg K.IMAGE_STATE ≠ 1 ∧ bConf.pins.bist = 0
      ∧ (bBoot 1).Calm ∧ (bBoot 1).ringUp = true ∧ (bBoot 1).lc = .boot ∧ (bBoot 1).pins.bootPhase ≠ 2
      ∧ (let b : Blk := { bConf with regs := [(K.IMAGE_STATE, 1)] }
         b.Calm ∧ b.reg K.IMAGE_STATE = 1 ∧ b.pins.invalidate = false ∧ (validateImage {} b 0 0).isSome = true) := by decide
theorem wit_ImagesAreWrittenLoadedAndValidated_length : (List.replicate 65536 (0 : Byte)).length ≤ 65536 :=
  Nat.le_of_eq List.length_replicate

/-- A validated image whose tick length and reserve are those of the entries. -/
def bImg : Blk :=
  { bConf with pins := { bConf.pins with schedRun := true },
               regs := [(K.IMAGE_STATE, 2), (K.TICK_LEN, 12800), (K.RECOMP_RESERVE, 100), (K.GUARD, 1000), (K.SYNC_WINDOW, 1000),
                        (K.FAULT_SLACK, 0), (K.PLAT_MAX, 0x0100)] }
def mImg : Store := { prog := Mem.write [] (131072 + 12) (leBytes 4 12800 ++ leBytes 4 100) }
theorem wit_ArmPutsValuesInForce :
    bImg.Calm ∧ bImg.RingIdle ∧ bImg.pins.schedRun = true ∧ bImg.reg K.PLAT_MAX ≠ 0 ∧ bImg.lc = .configured ∧ bImg.pins.bist = 0 ∧ bImg.ops = [] ∧ bImg.reg K.IMAGE_STATE = 2
      ∧ 8192 + bImg.reg K.GUARD + bImg.reg K.RECOMP_RESERVE + bImg.reg K.FAULT_SLACK ≤ bImg.reg K.TICK_LEN
      ∧ bImg.reg K.SYNC_WINDOW ≤ bImg.reg K.GUARD ∧ bImg.reg K.TICK_LEN = mImg.imgVal 12 4
      ∧ bImg.reg K.RECOMP_RESERVE = mImg.imgVal 16 4 ∧ bImg.mx.uncommitted = [] ∧ bit (bImg.reg K.ID_FLAGS) 0 = false
      ∧ bImg.reg K.PWR_BLOCK = 0 ∧ Tab.wf aniseDefault bImg.anise ∧ bConf.reg K.IMAGE_STATE ≠ 2 := by decide
theorem wit_ArmPutsValuesInForce_untangled : bImg.Untangled := ⟨by decide, by decide, fun _ h => nomatch h⟩

theorem wit_ClearEntriesClearWhatTheyName : bConf.Calm ∧ bConf.Serving ∧ bRun.Calm ∧ bRun.Serving
    ∧ (let b : Blk := { bConf.setReg K.TRACE_NEXT 192 with flt := { trOld := [(5, [])] } }
      b.Calm ∧ b.Serving ∧ b.flt.trOld = [(5, [])] ∧ b.flt.trDrop = [] ∧ b.reg K.TRACE_NEXT = 32 * ((5 + 1) % 8192))
    ∧ (let b : Blk := { bConf with flt := { trDrop := [List.replicate 32 1] } }
      b.Calm ∧ b.Serving ∧ b.flt.trOld = [] ∧ b.flt.trDrop = [List.replicate 32 1]) := by decide

/-- A slot that passes the checks, and a half of a checkpoint of such slots. -/
def goodSlot : List Byte := List.replicate 16 0x80 ++ [0, 0, 0, 1, 1, 0] ++ List.replicate 10 0
theorem slice_repeated (g : List Byte) (hg : g.length = 32) (n i : Nat) (hi : i < n) :
    slice (List.replicate n g).flatten (32 * i) 32 = g := by
  induction n generalizing i with
  | zero => omega
  | succ n ih =>
    cases i with
    | zero => simp [slice, List.replicate_succ, hg]
    | succ i =>
      have := ih i (by omega)
      have e : 32 * (i + 1) = g.length + 32 * i := by omega
      simpa [slice, List.replicate_succ, e] using this
theorem wit_AniseAndCloveAreRestoredOrCold :
    bConf.Calm ∧ bConf.Serving ∧ bConf.lc = .configured ∧ bConf.ring.seg = none ∧ goodSlot.length = 32 ∧ aniseOk goodSlot = true
      ∧ aniseOk (List.replicate 32 255) = false ∧ Nat.lor ({ bConf with ckpt := 1 } : Blk).ckpt 2 = 3
      ∧ (let b : Blk := { bConf with aniseNow := [{ slot := 9, anise := goodSlot, clove := List.replicate 16 0 }] }
         b.Calm ∧ b.Serving ∧ b.aniseNow.map (fun x => x.slot) = [9]) := by decide
theorem wit_AniseAndCloveAreRestoredOrCold_halves :
    (List.replicate 2048 goodSlot).flatten.length = 65536
      ∧ ∀ i, i < 2048 → aniseOk (slice (List.replicate 2048 goodSlot).flatten (32 * i) 32) = true := by
  have hg : goodSlot.length = 32 := by decide
  have len (n : Nat) : (List.replicate n goodSlot).flatten.length = 32 * n := by
    induction n with
    | zero => rfl
    | succ n ih => rw [List.replicate_succ, List.flatten_cons, List.length_append, hg, ih]; omega
  refine ⟨len 2048, fun i hi => ?_⟩
  rw [slice_repeated goodSlot hg 2048 i hi]
  decide

theorem wit_SaveAndRestoreStartAndEnd :
    let b : Blk := { bConf with regs := [(K.SR_LIMIT, 1024)] }
    let size (b : Blk) : Nat :=
      let heads := (b.ctxSlots 0).map (fun k => (k, (b.tile k).header (k % 64)))
      roundUp (saveSize heads (saveRange false heads).2) 1024
    (b.Calm ∧ b.ringUp = true ∧ b.sr.phase = 0 ∧ b.pins.bist = 0 ∧ b.half = false ∧ b.reg K.SR_BASE + b.reg K.SR_LIMIT ≤ 2 ^ 57
      ∧ b.lc = .configured ∧ b.reg K.SR_CTX = 0 ∧ size b ≤ b.reg K.SR_LIMIT ∧ b.ops = [] ∧ b.xfers = [] ∧ b.engineFree 7 = true)
    ∧ (let f : Blk := { b with tiles := [(63, tW)], regs := [(K.SR_LIMIT, 64)] }
       f.Calm ∧ ¬size f ≤ f.reg K.SR_LIMIT)
    ∧ bRun.Calm ∧ bRun.ringUp = true ∧ bRun.sr.phase = 0 ∧ bRun.lc = .running ∧ bRun.reg K.SR_BASE + bRun.reg K.SR_LIMIT ≤ 2 ^ 57 := by
  decide

/-- A save image of one empty tile, slot 5 of context 0, with its checksum. -/
def oneTile : List Byte :=
  let head (crc : Nat) : List Byte :=
    leBytes 4 0x52534C44 ++ [1, 0, 1, 0] ++ leBytes 8 7 ++ leBytes 4 96 ++ leBytes 4 crc ++ List.replicate 40 0
  let h : List Byte := [5, 0, 0, 7] ++ leBytes 4 0x440 ++ leBytes 8 0 ++ leBytes 2 77 ++ leBytes 2 12 ++ List.replicate 12 0
  head (crc32 (head 0 ++ h)) ++ h
def oImage : Op :=
  { id := 7, role := .image, opn := true, dests := [(255, 1)], total := 1, srcGen := 1,
    d := { opc := 0x61, port := 5, endpt := 8, slot := 255, nrows := 1, stride := 1024 } }
def bRest (save : Bool) : Blk :=
  { bConf with
    sr := { phase := 2, cmd := true, isSave := save, limit := 1024, parts := 9 },
    ops := if save then [] else [oImage], xfers := if save then [] else [{ tn := 1, op := 7, store := false, cfirst := 0 }] }
theorem wit_SaveAndRestoreStartAndEnd_end :
    ((bRest true).Calm ∧ (bRest true).sr.phase = 2 ∧ (bRest true).sr.hand = none ∧ (bRest true).sr.isSave = true
      ∧ (bRest true).sr.todo = [] ∧ (bRest true).engineFree 4 = true ∧ SrEnd.memoryFault ≠ .moved ∧ (bRest true).writes = [] ∧ (bRest true).ops = [])
    ∧ ((bRest false).Calm ∧ (bRest false).sr.phase = 2 ∧ (bRest false).sr.hand = none ∧ (bRest false).sr.isSave = false
      ∧ (bRest false).sr.image = [] ∧ (bRest false).sr.pos = 0 ∧ (bRest false).sr.prev = none ∧ (bRest false).sems = []
      ∧ (bRest false).writes = [] ∧ (bRest false).ops.all (fun o => o.role == .image && o.d.slot == 255) = true
      ∧ (bRest false).xfers.all (fun x => ((bRest false).op? x.op).isSome) = true ∧ imageOk [] = false) := by decide
theorem wit_SaveAndRestoreStartAndEnd_end_only : (bRest false).OnlyImage :=
  ⟨by decide, by decide, fun x hx => ⟨oImage, by rw [List.mem_singleton.1 hx]; decide, rfl, rfl⟩⟩
set_option maxRecDepth 100000 in
theorem wit_SaveAndRestoreStartAndEnd_end_image :
    imageOk oneTile = true ∧ fieldAt oneTile 16 4 = 96 ∧ roundUp 96 1024 ≤ (bRest false).sr.limit ∧ byteAt oneTile 6 = 1
      ∧ (bRest false).sr.anise = false
      ∧ crc32 (slice oneTile 0 20 ++ [0, 0, 0, 0] ++ slice oneTile 24 (fieldAt oneTile 16 4 - 24)) = fieldAt oneTile 20 4
      ∧ headerOk none (slice oneTile 64 32) = true ∧ fieldAt (slice oneTile 64 32) 8 8 = 0
      ∧ ((bRest false).tile (byteAt (slice oneTile 64 32) 0).toNat).scrubPend = false := by decide

theorem wit_BanksRetireAndAreTested :
    (bConf.Calm ∧ bConf.Serving ∧ bConf.pins.bist = 0 ∧ bConf.ops = [] ∧ (31 : Nat) < 34
      ∧ (List.range 32).find? (fun i => bConf.bankMap i == 31) = some 31 ∧ bConf.retired 31 = false ∧ bConf.ticking = false
      ∧ bConf.flt.retiring = [] ∧ bConf.half = false ∧ bConf.freeSpare = some 32)
    ∧ (bRun.Calm ∧ bRun.Serving ∧ bRun.ticking = true ∧ bRun.retired 31 = false)
    ∧ (bConf.ringUp = true ∧ bConf.lc = .configured ∧ bConf.reg K.PWR_BLOCK = 0 ∧ bConf.pwr.portsIdle = 0 ∧ bConf.pwr.groupsIdle = 0)
    ∧ ({ bConf with pins := { bConf.pins with bist := 31 } } : Blk).pins.bist ≠ 0
    ∧ ({ bConf with force := [(K.BIST_RETIRE, 0)] } : Blk).cfg K.BIST_RETIRE = 0
    ∧ (let b : Blk := { bConf with regs := [(K.TRACE_EN, 8)], pins := { bConf.pins with bist := 1 }, tiles := [(3, { inUse := true, state := .damaged })] }
      b.pins.bist ≠ 0 ∧ bit b.pins.bist 0 = true ∧ bit (b.rw K.TRACE_EN) 3 = true ∧ (b.tile 3).state ≠ .empty) := by decide

/-- Twelve bytes for `TILE_CONFIG`. -/
def tileBytes (slot shape : Nat) : List Byte := leBytes 2 slot ++ leBytes 2 9 ++ leBytes 4 shape ++ leBytes 2 4095 ++ [1, 0]
theorem wit_StopCancelAndTileConfig :
    let a : Blk := { bConf with lc := .armed }
    (a.Calm ∧ a.Serving ∧ a.pins.stopPend = 0 ∧ a.lc = .armed ∧ bRun.Calm ∧ bRun.Serving ∧ bRun.pins.stopPend = 0)
    ∧ (bConf.Calm ∧ bConf.Serving ∧ bConf.sems = [] ∧ (1 : Nat) ≤ 128 ∧ 0 + 128 ≤ 128 ∧ bConf.lc ≠ .safe)
    ∧ (∀ x ∈ [0x440, 0x441, 0x00060440], ∀ slot ∈ [0, 127], let v := tileBytes slot x
        v.length = 12 ∧ bConf.lc = .configured ∧ bConf.ring.seg = none ∧ bConf.pins.bist = 0 ∧ fieldAt v 0 2 = slot ∧ fieldAt v 4 4 = x
          ∧ slot < 128 ∧ fieldAt v 8 2 < 4096 ∧ fieldAt v 10 1 < 2 ∧ fieldAt v 11 1 = 0 ∧ bConf.half = false
          ∧ (bConf.tile slot).scrubPend = false)
    ∧ shapeOk 0x440 = true ∧ pairOk (shFmt 0x440) (shMode 0x440) = true ∧ shapeOk 0 = false
    ∧ (List.range 16).any (fun f => let x := 0x440 + 65536 * f + 1048576
        shapeOk x && !pairOk (shFmt x) (shMode x)) = true := by decide

/-! ### Witnesses: boundaries and degradation -/

/-- The boundary acts now. -/
def bEnd : Blk := { bRun with force := inForce, tick := { tRun with ended := true, unheld := 30000, lcyc := 29999 } }
theorem wit_IdleEntriesSetUnitStates_boundary :
    let b : Blk := { bEnd with pwr := { nextPorts := some 5, portsIdle := 3, nextGroups := some 0, groupsIdle := 9 } }
    let h : Blk := { bEnd with regs := bHalf.regs, pwr := { nextGroups := some 2, groupsIdle := 9 } }
    (∀ x ∈ [bEnd, b, h], x.AtBoundary ∧ x.flt.retiring = [] ∧ x.sr.phase ≠ 1 ∧ x.pins.stopPend = 0 ∧ x.flt.failing = []
      ∧ x.flt.mergeFailing = false)
    ∧ h.half = true ∧ (∀ k, k < 4 → h.halfGroup k < 8) ∧ (∀ k, k < 4 → ∀ j, j < 4 → h.halfGroup k = h.halfGroup j → k = j)
    ∧ bEnd.pwr.nextPorts = none ∧ bEnd.pwr.nextGroups = none := by decide

/-- Bank 13 is retired and a spare is free; a save waits. -/
theorem wit_BoundariesBeginTicksOrDrain_work :
    let r : Blk := { bEnd with flt := { retiring := [13] }, regs := [(K.BANKS_RETIRED, 2 ^ 13), (K.SPARES_FREE, 2)] }
    let v (l : Bool) : Blk := { bEnd with sr := { phase := 1, isSave := true, late := l, limit := 4096 } }
    (r.AtBoundary ∧ (List.range 32).find? (fun i => r.bankMap i == 13) = some 13 ∧ r.half = false ∧ r.freeSpare = some 32 ∧ r.sr.phase ≠ 1)
    ∧ (∀ l ∈ [true, false], (v l).AtBoundary ∧ (v l).flt.retiring = [] ∧ (v l).sr.phase = 1 ∧ (v l).sr.isSave = true ∧ (v l).xfers = []
      ∧ (v l).engineFree 7 = true)
    ∧ (let heads := ((v false).ctxSlots 0).map (fun k => (k, ((v false).tile k).header (k % 64)))
       roundUp (saveSize heads (saveRange false heads).2) 1024 ≤ (v false).sr.limit) := by decide

/-- Both spares are gone, with bank 13 to be retired next; in half mode on groups 0, 1, 2 and 4 with group 3 broken, banks 17 and 31;
with four groups broken, bank 31. -/
def bSpent : Blk :=
  { bConf with tiles := [(3, tP), (70, tP)], regs := [(K.BANKS_RETIRED, 2 ^ 32 + 2 ^ 33), (K.SPARES_FREE, 0), (K.IMAGE_STATE, 2)] }
def bSpentHalf : Blk :=
  { bSpent with
    tiles := [(3, tP)],
    regs := [(K.BANKS_RETIRED, 2 ^ 32 + 2 ^ 33 + 2 ^ 13), (K.IMAGE_STATE, 2), (K.HALF_MODE, 1), (K.HALF_GROUPS, 0x04020100)] }
def bBroken : Blk :=
  { bSpent with tiles := [(3, tP)], regs := [(K.BANKS_RETIRED, 2 ^ 32 + 2 ^ 33 + 1 + 2 ^ 4 + 2 ^ 9 + 2 ^ 21)] }
abbrev RetiresNext (b : Blk) (p groups : Nat) : Prop :=
  b.Calm ∧ b.Serving ∧ b.pins.bist = 0 ∧ b.sems = [] ∧ b.xfers = [] ∧ b.ops = [] ∧ p < 34 ∧ b.ticking = false ∧ b.lc ≠ .safe
    ∧ b.flt.retiring = [] ∧ (List.range 32).find? (fun i => b.bankMap i == p) = some p ∧ b.retired p = false ∧ b.freeSpare = none
    ∧ b.sr.phase = 0 ∧ (b.setReg K.BANKS_RETIRED (Nat.lor (b.reg K.BANKS_RETIRED) (2 ^ p))).intactGroups.length = groups
theorem wit_CellOutFaultsEnterSafe_half :
    RetiresNext bSpent 13 7 ∧ bSpent.half = false ∧ RetiresNext bSpentHalf 17 6 ∧ bSpentHalf.half = true ∧ bSpentHalf.halfGroup 3 = 17 / 4
      ∧ RetiresNext bSpentHalf 31 6 ∧ (∀ h, h < 4 → bSpentHalf.halfGroup h ≠ 31 / 4) ∧ RetiresNext bBroken 31 3
    := by decide

theorem wit_CellOutFaultsEnterSafe_units :
    let f (p : Nat) : Blk := { bEnd with flt := { failing := [p] }, ops := [oOpen], reqs := [(34, rOpen)], regs := [(K.IMAGE_STATE, 2)] }
    let g : Blk := { f 2 with flt := { mergeFailing := true } }
    (∀ x ∈ [f 2, f 3, g], x.AtBoundary ∧ x.pwr.nextPorts = none ∧ x.pwr.nextGroups = none ∧ x.flt.retiring = [] ∧ x.sr.phase = 0 ∧ x.xfers = []
      ∧ x.sems = [] ∧ x.mx.waits = [])
    ∧ (f 2).fenced 2 = false ∧ (f 2).flt.mergeFailing = false ∧ oOpen.d.port = 2 ∧ oOpen.opn = true ∧ oOpen.d.opc = 0x20
    ∧ (f 3).fenced 3 = false ∧ isLoop oOpen.d.opc = false ∧ g.flt.failing = [] := by decide

/-! ### Witnesses: several candidates, open writes, gather, link, loop -/

def oRival : Op := { oOpen with id := 6, d := { oOpen.d with req := 4, deadline := 300 } }
/-- Two feeds on one port; the counts of the second one's requester are `hog` and the limit is `lim`. -/
def bTwo (hog lim : Nat) : Blk :=
  { bRound with
    ops := [oOpen, oRival], reqs := [(34, { queue := [5] }), (36, { queue := [6], aging := 2, hog := hog })],
    force := (K.HOG_LIMIT, lim) :: (K.AGE_MAX, 8) :: (K.AGE_STEP, 10) :: (K.HOG_PENALTY, 64) :: inForce,
    tick := { tRun with lcyc := 100, unheld := 100 } }
set_option synthInstance.maxSize 5000 in
set_option synthInstance.maxHeartbeats 200000 in
theorem wit_RoundGrantsTheOneCandidate_two : ∀ hog ∈ [0, 4],
    (bTwo hog 4).QuietRound 2 [2, 4] ∧ (bTwo hog 4).Feeds 2 oOpen ∧ (bTwo hog 4).Feeds 2 oRival
      ∧ (∀ i ∈ [2, 4], (bTwo hog 4).overdue 2 i = false)
      ∧ (0 ∈ accessQuarters oOpen.d oOpen.srcShape oOpen.n ∧ 0 ∈ accessQuarters oRival.d oRival.srcShape oRival.n)
      ∧ (let eff (k : Nat) : Nat := (bTwo hog 4).biased 2 k - ((bTwo hog 4).requester 2 k).aging * (bTwo hog 4).cfg K.AGE_STEP
         eff 4 < eff 2) := by decide
set_option synthInstance.maxSize 5000 in
set_option synthInstance.maxHeartbeats 200000 in
theorem wit_RoundGrantsTheOneCandidate_miss :
    let b : Blk := { bRound with reqs := [(34, { rOpen with missed := false })] }
    b.QuietRound 2 [2] ∧ b.Feeds 2 oOpen ∧ b.overdue 2 2 = true ∧ (b.requester 2 2).missed = false := by decide

/-- An open `TLD`, `TTAKE` or `TRECV` at its second row, and a beat for it. -/
def oWrite (opc : Nat) : Op :=
  { oTake 1 with
    opn := true, total := 4,
    d := { (oTake 1).d with
      opc := opc, port := if opc = 0x22 then 4 else 5, endpt := if opc = 0x22 then 2 else if opc = 0x51 then 10 else 8,
      slotCycle := 0x1FFFFF, deadline := 0x1FFFFF, chan := 1, nrows := 4 } }
def bWrite (opc : Nat) : Blk :=
  { bPort with
    ops := [oWrite opc], reqs := [(16 * (oWrite opc).d.port + 2, { queue := [5] })], sched := {},
    xfers := if opc = 0x10 then [{ tn := 9, op := 5, store := false, order := some 6, cfirst := 5, delivered := true }] else [] }
def writeBeatOf (opc : Nat) (st : Stamp) : Beat :=
  mkBeat [] (List.replicate 96 0 ++ [1, BitVec.ofNat 8 (accessRow (oWrite opc).d (oWrite opc).dstShape 1)]) st (qenOf (takeQuarters (oWrite opc)))
/-- The write's candidate with that beat is the only one of the round. -/
abbrev WritesAlone (b : Blk) (o : Op) (bt : Beat) : Prop :=
  let off : Offer := { endpt := o.d.endpt, beat := bt }
  (b.Calm ∧ b.moving = true ∧ b.op? o.id = some o ∧ o.role = .main ∧ o.d.port < 6 ∧ o.poison = [] ∧ o.n + 1 < o.total)
    ∧ ((List.range 16).filterMap (fun i => candOf (b.openRound o.d.port [off]) (schedAccs {} b) o.d.port i [off])).any (fun c =>
        decide (b.AloneOn {} o.d.port [off] c) && c.op == o.id && c.offer == some bt) = true
theorem wit_RoundGrantsTheOneCandidate_writes : ∀ opc ∈ [0x10, 0x22, 0x51],
    WritesAlone (bWrite opc) (oWrite opc) (writeBeatOf opc (bWrite opc).stamp)
      ∧ (bWrite opc).GoodBeat (writeBeatOf opc (bWrite opc).stamp) (takeQuarters (oWrite opc)) := by decide +kernel
theorem wit_RoundGrantsTheOneCandidate_stamps : ∀ opc ∈ [0x10, 0x22, 0x51],
    WritesAlone (bWrite opc) (oWrite opc) (writeBeatOf opc ((bWrite opc).stamp ||| 1)) ∧ (bWrite opc).badStamp ((bWrite opc).stamp ||| 1) = true
      ∧ stampBad (writeBeatOf opc ((bWrite opc).stamp ||| 1)) = false := by decide +kernel

/-- A `TGATHER` of slot 3, an index tile, over slot 5: at its index row; with an index in staging, in two orders; with a fault. -/
def shIdx : Nat := 0xE0440
def oGather (ordered : Bool) : Op :=
  { id := 5, opn := true, tick := 7, n := 1, total := 5, srcShape := shIdx,
    d := { opc := 0x30, port := 2, endpt := 3, req := 2, slot := 3, ifirst := 3, nidx := 5, srcBase := 5, srcTiles := 1, opid := 0x1234,
           opf := ordered, slotCycle := 0x1FFFFF, deadline := 500 } }
def bGather (ordered : Bool) (g : List GEntry) (staged : List (Nat × Nat)) (next : Nat) : Blk :=
  { bPort with
    tiles := [(3, { tP with shape := shIdx, rowValid := 0xFFFFFFFF }), (5, tP)], ops := [oGather ordered],
    reqs := [(34, { queue := [5], aging := 3, missed := true })], sched := {}, gather := g, gStaged := staged, gNext := next }
abbrev Gathers (b : Blk) (o : Op) (pick : Nat) : Prop :=
  b.Calm ∧ b.moving = true ∧ b.op? o.id = some o ∧ b.ops.filter (fun q => q.d.opc == 0x30) = [o] ∧ o.opn = true ∧ o.role = .main
    ∧ o.d.opc = 0x30 ∧ o.d.port = 2 ∧ b.active 2 = true
    ∧ ((List.range 16).filterMap (fun i => candOf (b.openRound 2 []) (schedAccs {} b) 2 i [])).any (fun c =>
        decide (b.AloneOn {} 2 [] c) && c.op == o.id && c.pick == pick) = true
theorem wit_ScheduledReadSendsTheStoredRow_gather :
    let i := bGather false [] [] 0
    let o := oGather false
    let e (ordered : Bool) : Blk := bGather ordered [{ seq := 1, idx := 11 }] [(2, 7), (3, 70)] 4
    let f := bGather false [{ seq := 1, idx := 70, fault := true }] [(2, 7), (3, 70)] 4
    (Gathers i o 0 ∧ o.srcShape = (i.seenTile 3).shape ∧ shapeOk shIdx = true ∧ shRB shIdx % 2 = 0 ∧ 0 < shRB shIdx / 2
      ∧ i.rowRead 3 (3 / (shRB shIdx / 2)) = .stored ∧ i.active (8 + i.groupOf 3 0) = true)
    ∧ (∀ ordered ∈ [true, false], Gathers (e ordered) (oGather ordered) 2 ∧ ((e ordered).openRound 2 []).gather.find? (fun y => y.seq == 1)
          = some { seq := 1, idx := 11 } ∧ ((e ordered).openRound 2 []).gather.all (fun y => y.beat.isNone) = true
        ∧ ((e ordered).seenTile 5).inUse = true ∧ shapeOk ((e ordered).seenTile 5).shape = true ∧ (e ordered).rowRead 5 11 = .stored
        ∧ (e ordered).active (8 + (e ordered).groupOf 5 11) = true)
    ∧ Gathers f o 2 ∧ (f.openRound 2 []).gather.find? (fun y => y.seq == 1) = some { seq := 1, idx := 70, fault := true } := by
  decide +kernel
/-- In index order, the second entry goes first to its free group. -/
theorem wit_ScheduledReadSendsTheStoredRow_kept :
    let b : Blk := bGather true [{ seq := 0, idx := 2, sent := false }, { seq := 1, idx := 70, fault := true }] [] 5
    let w : Blk := { b with tiles := [(3, { tP with shape := shIdx, rowValid := 0xFFFFFFFF }), (5, { tP with rowValid := 0x200 })] }
    Gathers w (oGather true) 2 ∧ (w.openRound 2 []).gather.find? (fun y => !y.sent) = some { seq := 0, idx := 2, sent := false } := by
  decide +kernel
def outGather : OutBeat := { endpt := 3, port := 2, op := 5, beat := {}, due := 4000, seq := some 4, slot := 3, opn := true }
theorem wit_ScheduledReadSendsTheStoredRow_gathered : ∀ taken ∈ [true, false],
    let b : Blk := { bGather false [{ seq := 4, idx := 1, sent := true, beat := some {} }] [] 5 with
      outs := [outGather], ops := [{ oGather false with taken := taken }] }
    b.oldestOut 3 = some outGather ∧ b.busLow 3 = false ∧ b.Calm ∧ (b.op? 5).isSome = true
      ∧ (b.ops.filter (fun q => q.d.opc == 0x30)).length = 1 ∧ (b.gather.filter (fun y => y.seq != 4)) = [] ∧ 5 ≤ b.gNext := by decide

/-- An open `TSEND` of slot 3 at its second row. -/
def oSend : Op :=
  { oRead 1 with opn := true, d := { (oRead 1).d with opc := 0x50, port := 2, endpt := 11, chan := 77, slotCycle := 0x1FFFFF, deadline := 500 } }
theorem wit_ScheduledReadSendsTheStoredRow_send :
    let b : Blk := { bPort with ops := [oSend], reqs := [(34, rOpen)], sched := {} }
    b.Calm ∧ b.moving = true ∧ b.op? oSend.id = some oSend ∧ oSend.role = .main ∧ oSend.taken = false
      ∧ oSend.srcShape = (b.seenTile 3).shape ∧ shapeOk oSend.srcShape = true ∧ b.active 2 = true ∧ b.rowRead 3 6 = .stored
      ∧ accessRow oSend.d oSend.srcShape oSend.n = 6 ∧ b.active (8 + b.groupOf 3 6) = true
      ∧ ((List.range 16).filterMap (fun i => candOf (b.openRound 2 []) (schedAccs {} b) 2 i [])).any (fun c =>
          decide (b.AloneOn {} 2 [] c) && c.op == oSend.id && c.offer.isNone) = true := by decide +kernel

/-- A scheduled `TMOVE` (0x40) or `TCONV` (0x41) from slot 3 into slot 4, whole rows or quarters. -/
def oLoop (opc : Nat) (split : Bool) (n : Nat) : Op :=
  { id := 5, tick := 7, base := 1000, n := n, total := 2, srcShape := shP, dstShape := shP, dests := [(4, 0)],
    d := { opc := opc, port := 2, endpt := 14, wport := 4, dst := 4, req := 2, slot := 3, start := 5, nrows := 2, slotCycle := 1000,
           qsplit := split, cadence := 2 } }
theorem wit_ScheduledTakeEntersTheWritePath_loop : ∀ opc ∈ [0x40, 0x41], ∀ split ∈ [true, false], ∀ n ∈ [0, 1],
    let o := oLoop opc split n
    let row := accessRow o.d o.srcShape o.n
    ∀ b ∈ [({ bPort with ops := [o] } : Blk), { bPort with ops := [o], pwr := { portsIdle := 16 } }, { bPort with ops := [o], regs := [(K.PORT_FENCED, 16)] }],
      b.op? 5 = some o ∧ o.opn = false ∧ b.moving = true ∧ isLoop o.d.opc = true ∧ o.taken = false ∧ b.fenced o.d.port = false
        ∧ o.srcShape = (b.seenTile 3).shape ∧ shapeOk o.srcShape = true ∧ b.Calm ∧ b.rowRead 3 row = .stored ∧ b.active 2 = true
        ∧ b.active (8 + b.groupOf 3 row) = true ∧ converts o.d.opc (shFmt o.dstShape) = (opc == 0x41) ∧ (b.seenTile 3).state ≠ .damaged := by
  decide
theorem wit_ScheduledTakeEntersTheWritePath_ports :
    ({ bPort with pwr := { portsIdle := 16 } } : Blk).active 4 = false ∧ bPort.active 4 = true
      ∧ ({ bPort with regs := [(K.PORT_FENCED, 16)] } : Blk).fenced 4 = true := by decide

/-! ### Witnesses: the matrix window, scales, conversions and errors -/

def bMx : Blk :=
  { bConf with
    tick := { wall := 50 }, anise := [(3, List.replicate 32 0xFF)], clove := [(4, List.replicate 14 5 ++ [0, 0])], regs := [(K.MX_LOCK_STATUS, 0x15)],
    tiles := [(3, { tP with deadRead := true }), (4, { tP with state := .loading, rowValid := 0, writers := 1 })] }
def mxWrite (m a sz : Nat) (bs : List Byte) : Burst :=
  { master := m, write := true, addr := a, size := sz, beats := bs.length / sz, data := bs.map some }
def thirtyTwo : List Byte := (List.range 32).map (fun i => BitVec.ofNat 8 (0xE0 + i))
theorem wit_MatrixBurstsReachTheirTargets_units :
    ∀ u ∈ [mxWrite 2 0x300060 4 thirtyTwo, mxWrite 1 0x300060 4 thirtyTwo, mxWrite 3 0x300060 32 thirtyTwo, mxWrite 2 0x320040 4 (thirtyTwo.take 16),
        mxWrite 1 0x320050 8 (thirtyTwo.take 16), mxWrite 1 0x600000 4 [0, 1, 0, 0], mxWrite 1 0x600100 4 [1, 0, 0, 0], mxWrite 1 0x60106C 4 [1, 0, 0, 0],
        mxWrite 1 0x601070 4 [1, 0, 0, 0]],
      burstOk u = true ∧ bMx.mxHeld u.master = false ∧ bMx.mxEnabled u.master = true ∧ bMx.mx.waits = [] ∧ bMx.flt.trWait = []
        ∧ bMx.mx.locks = [] ∧ bMx.mx.fills = [] ∧ bMx.mx.remapWait = false ∧ u.addr / 4096 = (u.addr + burstLen u - 1) / 4096
        ∧ (bMx.mxRouteNow u true).any (fun p => (p.1 == 4 || p.1 == 7) && decide (u.addr - p.2.1 + burstLen u ≤ p.2.2)
            && !bMx.writeRefused u p.1 (u.addr - p.2.1) (burstLen u)) = true := by decide

/-- An access of the window by M2: its wait in the round, for one transfer. -/
def mxRead (a beats : Nat) : Burst := { master := 2, addr := a, size := 4, beats := beats }
def wSv (u : Burst) (j : Nat × Nat × Nat) : MxWait := { burst := u, since := 3, why := 4, no := 0, tick := 0, en := true, jobs := [j] }
theorem wit_MatrixBurstsReachTheirTargets_window :
    let fenced : Blk := { bMx with regs := [(K.PORT_FENCED, 48)] }
    (∀ u ∈ [mxRead (0x1000000 + 65536 * 3 + 1024 * 6 + 256) 8, mxRead (0x1000000 + 65536 * 3 + 1024 * 6 + 768) 8,
        mxWrite 2 (0x1000000 + 65536 * 4 + 1024 * 6 + 256) 4 thirtyTwo, mxWrite 2 (0x1000000 + 65536 * 3 + 1024 * 6 + 256) 4 thirtyTwo],
      burstOk u = true ∧ bMx.mxHeld 2 = false ∧ bMx.mxEnabled 2 = true ∧ u.lock = false ∧ (bMx.mxRouteNow u true).any (fun p => p.1 == 8) = true
        ∧ bMx.lockOf 8 = none ∧ (bMx.svPort false).isSome = true ∧ (bMx.svPort true).isSome = true)
    ∧ bMx.windowJobs 8 (65536 * 3 + 1024 * 6 + 256) 32 ≠ [] ∧ bMx.windowJobs 8 (65536 * 3 + 1024 * 6 + 768) 32 = []
    ∧ bMx.windowWrites 8 (65536 * 3 + 1024 * 6 + 256) 32 = true ∧ ({ bMx with lc := .running } : Blk).windowWrites 8 (65536 * 3 + 1024 * 6 + 256) 32 = false
    ∧ (fenced.svPort true) = none := by decide
set_option synthInstance.maxSize 5000 in
theorem wit_MatrixBurstsReachTheirTargets_grant :
    let a := 0x1000000 + 65536 * 3 + 1024 * 6 + 256
    let put : MxWait := { wSv (mxWrite 2 a 4 thirtyTwo) (3, 6, 1) with writing := true, gathered := [(0, [9]), (1, [8])] }
    ∀ x ∈ [(0, wSv (mxRead a 8) (3, 6, 1)), (0, wSv (mxRead (0x1800000 + 8192 * 3 + 128 * 6) 8) (3, 6, 0)), (0, wSv (mxWrite 2 a 4 thirtyTwo) (3, 6, 1)), (4, put)],
      let b : Blk := { bMx with mx := { waits := [x.2], no := 1 } }
      let j := x.2.jobs.headD (0, 0, 0)
      b.Settled ∧ b.Unheld ∧ ((List.range 16).filterMap (fun i => candOf (b.openRound x.1 []) (schedAccs {} b) x.1 i [])).any (fun c =>
          decide (b.AloneOn {} x.1 [] c) && c.id == 15) = true
        ∧ (mxTarget x.2.burst.addr).any (fun t => t.1 == 8 || t.1 == 9) = true ∧ b.active x.1 = true ∧ b.active (8 + b.groupOf 3 6) = true
        ∧ b.rowRead 3 6 = .stored ∧ shapeOk (b.tile 3).shape = true ∧ b.windowRow 3 6 = true ∧ j = (3, 6, j.2.2) ∧ x.2.gen = (b.tile 3).gen := by
  decide +kernel
theorem wit_MatrixBurstsReachTheirTargets_landed :
    let w : MxWait := { wSv (mxWrite 2 (0x1000000 + 65536 * 3 + 1024 * 6 + 256) 4 thirtyTwo) (3, 6, 1) with jobs := [], wid := some 7 }
    let v : RowWrite := { wRow with wid := 7, kind := .sv, slot := 3, row := 6, op := 0 }
    let b : Blk := { bMx with mx := { waits := [w], no := 1 }, writes := [v] }
    b.Settled ∧ b.flt.trWait = [] ∧ b.writes.find? (fun x => x.wid == v.wid) = some v ∧ b.active (8 + b.groupOf 3 6) = true
      ∧ (b.tile 3).gen = v.gen ∧ shapeOk (b.tile 3).shape = true := by decide

/-- A commit into slot 4 with scale slot 9: nothing flushed; a flush that reaches the limit; the same with the alarm masked. -/
def oFlush (f n : Nat) : Op := { oDone with sums := { flushed := f, nonzero := n, amax := some 5 } }
theorem wit_AniseAndCloveAreRestoredOrCold_commit : ∀ x ∈ [(oFlush 3 4, 0), (oFlush 4 4, 0), (oFlush 4 4, 1), (oFlush 0 4, 0), (oFlush 0 0, 0)],
    let b : Blk :=
      { bPort with
        ops := [x.1], tiles := [(4, { tP with state := .loading, writers := 1, rowValid := 0, scaleSlot := 9 })],
        force := (K.FLUSH_FRAC, 128) :: (K.FLUSH_RUN_LIMIT, 2) :: inForce, anise := [(9, goodSlot)],
        clove := [(9, List.replicate 8 7 ++ [1, 0, 3, 0, 4, 0, 0, 0])], regs := [(K.CLOVE_ALARM_MASK, x.2)] }
    b.op? 5 = some x.1 ∧ b.commitDue x.1 = true ∧ b.Calm ∧ x.1.srcs = [] ∧ x.1.dests = [(x.1.dest, (b.tile x.1.dest).gen)]
      ∧ (b.tile x.1.dest).writers = 1 ∧ (b.tile x.1.dest).state = .loading ∧ x.1.sums.overflow = false ∧ b.aniseNow = []
      ∧ converts x.1.d.opc (shFmt x.1.dstShape) = true := by decide

/-- 448 and 480 in E4M3, the tie at 464 and a flushed value; a block of finite elements, and one with a NaN; codes for the packing. -/
theorem wit_ConversionsRoundToNearestEven :
    fmtLimits 3 = (-14, 14, 5) ∧ (149 : Int) ≤ 149 ∧ (0 : Int) ≤ 0 + 0 + 149
      ∧ (convElem 3 0 false (.fin false 464 0) {}).1 = (convElem 3 0 false (.fin false 448 0) {}).1
      ∧ (convElem 3 0 false (.fin false 465 0) {}).2.sums.overflow = true ∧ (convElem 3 0 true (.fin false 465 0) {}).2.clamps = 1
      ∧ (convElem 3 0 false (.fin true 1 (-40)) {}).2.sums.flushed = 1 ∧ (Machine.Num.fin false 5 2).finite = true ∧ Machine.Num.nan.finite = false
      ∧ (∀ c ∈ [3, 1, 0, 63], c < 2 ^ fmtBits 7) ∧ [3, 1, 0, 63].length % 4 = 0 := by decide

theorem wit_BanksRetireAndAreTested_errors :
    let o := oRead 1
    let b : Blk := { bPort with ops := [o], force := (K.AUTO_RETIRE, 0) :: inForce }
    let m0 := Mem.write [] (markIx false (b.physOf 3 6 0) (b.entryOf 3 6) 3) [1]
    let m : Store := { marks := Mem.write m0 (markIx true (b.physOf 3 6 1) (b.entryOf 3 6) 2) [3] }
    b.op? 5 = some o ∧ o.opn = false ∧ b.moving = true ∧ o.d.opc = 0x20 ∧ o.taken = false ∧ b.fenced 2 = false
      ∧ o.srcShape = (b.seenTile 3).shape ∧ shapeOk o.srcShape = true ∧ b.Calm ∧ b.eccSeen = [] ∧ b.cfg K.AUTO_RETIRE = 0
      ∧ accessRow o.d o.srcShape o.n = 6 ∧ b.rowRead 3 6 = .stored ∧ b.active 2 = true ∧ b.active (8 + b.groupOf 3 6) = true
      ∧ (∀ q, q < 4 → b.physOf 3 6 q < 34)
      ∧ (readArrays m b 3 6 [0, 1, 2] 768).2.2.1.map (fun e => (e.bank, e.word, e.sb, e.double)) = [(4, 3, false, false), (5, 2, true, true)] := by
  decide
/-- The first error of a bank, and the one that fails it. -/
theorem wit_BanksRetireAndAreTested_window : ∀ count ∈ [0, 2],
    let o := oRead 1
    let b : Blk :=
      { bPort with
        ops := [o], force := (K.AUTO_RETIRE, 1) :: (K.RETIRE_UE_COUNT, 3) :: (K.RETIRE_WINDOW, 8) :: inForce,
        flt := { windows := [(5, { count := count, start := 5, last := some 3 })] } }
    let m : Store := { marks := Mem.write [] (markIx true (b.physOf 3 6 1) (b.entryOf 3 6) 2) [3] }
    b.Calm ∧ b.eccSeen = [] ∧ b.cfg K.AUTO_RETIRE ≠ 0 ∧ b.sems = [] ∧ b.xfers = [] ∧ o.pendingOvf = none ∧ b.rowRead 3 6 = .stored
      ∧ ((readArrays m b 3 6 [0, 1, 2] 768).2.2.1.filter (fun z => z.double)).map (fun z => z.bank) = [5] ∧ b.retired 5 = false
      ∧ (List.range 32).find? (fun i => b.bankMap i == 5) = some 5 ∧ b.cfg K.RETIRE_UE_COUNT = 3 ∧ subMod (2 ^ 40) b.tick.tick 5 = 2 := by decide

end Sys2Proof.Tests
end

section
/-! What every family of statements needs: the outcome of a command that changes the block only. -/

namespace Sys2Proof.Machine

/-- A command that changes nothing but the block, by `g`. -/
theorem State.upd_becomes (s : State) {g : Blk → Blk} {b : Blk} (h : g s.blk = b) :
    (Host.Outcome.next (s.upd (fun _ b => g b)) : Host.Outcome State Fault Refusal) = s.becomes b := by
  rw [← h]; rfl

/-- A flag's weight in a sum of flags. -/
theorem ite_zero_le (p : Prop) [Decidable p] (n : Nat) : (if p then n else 0) ≤ n := by
  split
  · exact Nat.le_refl n
  · exact Nat.zero_le n

end Sys2Proof.Machine
end

section
/-! 01_boundary.md R14: long and short resets. -/

namespace Sys2Proof.Machine

/-! ### Resets -/

theorem resetActs_long {n : Nat} (h : 16 ≤ n) (b : Blk) : resetActs n b = (true, b) := if_pos h

theorem resetActs_short {n : Nat} (h : n < 16) (b : Blk) :
    resetActs n b = (Config.freeValue b.fresh % 2 == 1, b.takeFree) := if_neg (by omega)

theorem exec_coldReset_long {n : Nat} (h : 16 ≤ n) (s : State) : exec (.coldReset n) s = .next (s.cold true) := by
  show execColdReset n s = _
  unfold execColdReset
  rw [resetActs_long h]
  rfl

/-- A reset line whose full effect is `full` and that is held for fewer than 16 cycles: the free value taken for it chooses between
`full` and nothing (01_boundary.md R14). -/
theorem shortReset_full_or_none {n : Nat} (h : n < 16) (full : Blk → State) (s : State) :
    (Host.Outcome.next (if (resetActs n s.blk).1 then full (resetActs n s.blk).2 else { s with blk := (resetActs n s.blk).2 }) :
        Host.Outcome State Fault Refusal) =
      if Config.freeValue s.blk.fresh % 2 = 1 then .next (full s.blk.takeFree) else .next { s with blk := s.blk.takeFree } := by
  rw [resetActs_short h]
  by_cases hf : Config.freeValue s.blk.fresh % 2 = 1 <;> simp [hf]

/-- Settles O8: a long reset is `State.cold` itself; a short one runs the long one's effect, or none, behind the free value. -/
theorem coldAndShortResets : Obligations.ColdAndShortResets := by
  unfold Obligations.ColdAndShortResets
  refine ⟨fun s => ⟨fun n hn => exec_coldReset_long hn s, rfl⟩, ?_⟩
  rintro s n c hn (rfl | rfl | rfl)
  · exact shortReset_full_or_none hn (fun b => coldState { s with blk := b } true) s
  · exact shortReset_full_or_none hn (fun b =>
      s.ordered ({ s with mem := (warmReset (s.mem, b)).1, blk := (warmReset (s.mem, b)).2 } : State).mxServe) s
  · exact shortReset_full_or_none hn (fun b =>
      s.ordered ({ s with mem := (ringReset (s.mem, b)).1, blk := (ringReset (s.mem, b)).2 } : State).mxServe) s

end Sys2Proof.Machine
end

section
/-! 14_dictionary.md R340 and R341, 13_evien.md R324: what one event leaves of the error history, the fault pins and the emergency queue. -/

namespace Sys2Proof.Machine

/-! ### What an event leaves of the logs -/

theorem Blk.placeRecord_logs (b : Blk) (r : List Byte) (now : Bool) :
    (b.placeRecord r now).flt.out = b.flt.out ∧ (b.placeRecord r now).flt.ehSeq = b.flt.ehSeq ∧ (b.placeRecord r now).ring = b.ring := by
  unfold Blk.placeRecord
  split <;> exact ⟨rfl, rfl, rfl⟩

/-- A trace record leaves the fault pins, the error history's sequence number and the emergency queue alone. -/
theorem Blk.traceRec_logs (b : Blk) (kind cls : Nat) (p : List Byte) :
    (b.traceRec kind cls p).flt.out = b.flt.out ∧ (b.traceRec kind cls p).flt.ehSeq = b.flt.ehSeq ∧ (b.traceRec kind cls p).ring = b.ring := by
  unfold Blk.traceRec
  split
  · exact ⟨rfl, rfl, rfl⟩
  · dsimp only
    split
    · exact ⟨rfl, rfl, rfl⟩
    · exact Blk.placeRecord_logs _ _ _

/-- A frame of the emergency queue says nothing of the fault pins or the error history. -/
theorem Blk.emergency_flt (b : Blk) (pos code cls x : Nat) : (b.emergency pos code cls x).flt = b.flt := by
  unfold Blk.emergency
  split
  · rfl
  · split <;> rfl

/-- The error register does not count lost frames, and reads nothing of the queue. -/
theorem Blk.emergency_errorRegWith (b : Blk) (pos code cls x y : Nat) : (b.emergency pos code cls x).errorRegWith y = b.errorRegWith y := by
  have hlc : (b.emergency pos code cls x).lc = b.lc := (b.emergency_only pos code cls x).lc_eq
  have hreg (k : Nat) (h : k ≠ K.EMCY_LOST) : (b.emergency pos code cls x).reg k = b.reg k := b.emergency_reg _ _ _ _ _ h
  unfold Blk.errorRegWith
  rw [b.emergency_flt, hlc, hreg K.SYNC_STATE (by decide), hreg K.SPARES_FREE (by decide), hreg K.HALF_MODE (by decide),
    hreg K.PORT_FENCED (by decide), hreg K.UNITS_OUT (by decide)]

/-- Position of the error history that the next event takes (14_dictionary.md R341). -/
def Blk.eventPos (b : Blk) : Nat := (b.reg K.EH_NEXT + 15) % 16 + 1

theorem Blk.eventPos_eq {b : Blk} (h1 : 1 ≤ b.reg K.EH_NEXT) (h16 : b.reg K.EH_NEXT ≤ 16) : b.eventPos = b.reg K.EH_NEXT := by
  unfold Blk.eventPos; omega

/-- The event entered and traced, before its emergency frame. -/
def Blk.eventLogged (b : Blk) (code cls unit : Nat) : Blk :=
  (b.enterEvent code cls unit).traceRec 1 0
    (leBytes 2 code ++ [BitVec.ofNat 8 cls, BitVec.ofNat 8 unit] ++ leBytes 4 ((b.flt.ehSeq + 1) % 2 ^ 32))

theorem Blk.eventWith_eq (b : Blk) (code cls unit x : Nat) : b.eventWith code cls unit x =
    if cls = 0 then b.eventLogged code cls unit else (b.eventLogged code cls unit).emergency b.eventPos code cls x := rfl

section
variable (b : Blk) (code cls unit x : Nat)

/-- The bytes of the entry that an event makes (R341). -/
def Blk.eventEntry : List Byte :=
  leBytes 2 code ++ [BitVec.ofNat 8 cls, BitVec.ofNat 8 unit] ++ leBytes 4 ((b.flt.ehSeq + 1) % 2 ^ 32) ++ leBytes 8 b.stamp.toNat

/-- The scalar entries that an event's entry writes. -/
theorem Blk.enterEvent_reg (k : Nat) : (b.enterEvent code cls unit).reg k =
    if k = K.EH_TOTAL then min (b.reg K.EH_TOTAL + 1) 0xFFFFFFFF else if k = K.EH_COUNT then min (b.reg K.EH_COUNT + 1) 16
    else if k = K.EH_NEXT then b.eventPos % 16 + 1 else b.reg k := by
  unfold Blk.enterEvent Blk.count
  dsimp only
  simp only [Blk.reg_setReg, Blk.reg_setRec]
  rfl

theorem Blk.enterEvent_recAt (j : Nat) : (b.enterEvent code cls unit).recAt j =
    if j = K.EH_COUNT + b.eventPos then b.eventEntry code cls unit else b.recAt j :=
  Blk.recAt_setRec _ _ _ _

theorem Blk.eventLogged_reg (k : Nat) (h : k ≠ K.TRACE_NEXT ∧ k ≠ K.TRACE_FILL ∧ k ≠ K.TRACE_LOST) :
    (b.eventLogged code cls unit).reg k = (b.enterEvent code cls unit).reg k := Blk.traceRec_reg _ _ _ _ _ h

theorem Blk.eventLogged_logs : (b.eventLogged code cls unit).flt.out = Nat.lor b.flt.out (2 ^ cls)
    ∧ (b.eventLogged code cls unit).flt.ehSeq = (b.flt.ehSeq + 1) % 2 ^ 32 ∧ (b.eventLogged code cls unit).ring = b.ring :=
  Blk.traceRec_logs _ _ _ _

theorem Blk.eventLogged_only : Only [] [] b (b.eventLogged code cls unit) :=
  (b.enterEvent_only code cls unit).trans (Blk.traceRec_only _ _ _ _)

theorem Blk.eventWith_reg_of_ne (k : Nat) (h : k ≠ K.TRACE_NEXT ∧ k ≠ K.TRACE_FILL ∧ k ≠ K.TRACE_LOST) (he : k ≠ K.EMCY_LOST) :
    (b.eventWith code cls unit x).reg k = (b.enterEvent code cls unit).reg k := by
  rw [Blk.eventWith_eq, ← Blk.eventLogged_reg _ _ _ _ _ h]
  split
  · rfl
  · exact Blk.emergency_reg _ _ _ _ _ _ he

theorem Blk.eventWith_recAt (j : Nat) : (b.eventWith code cls unit x).recAt j =
    if j = K.EH_COUNT + b.eventPos then b.eventEntry code cls unit else b.recAt j := by
  have hrecs : (b.eventWith code cls unit x).recs = (b.enterEvent code cls unit).recs := by
    rw [Blk.eventWith_eq]
    split
    · exact Blk.traceRec_recs _ _ _ _
    · exact (Blk.emergency_recs _ _ _ _ _).trans (Blk.traceRec_recs _ _ _ _)
  rw [← Blk.enterEvent_recAt, Blk.recAt, Blk.recAt, hrecs]

theorem Blk.eventWith_flt : (b.eventWith code cls unit x).flt = (b.eventLogged code cls unit).flt := by
  rw [Blk.eventWith_eq]
  split
  · rfl
  · exact Blk.emergency_flt _ _ _ _ _

theorem Blk.eventWith_ehSeq : (b.eventWith code cls unit x).flt.ehSeq = (b.flt.ehSeq + 1) % 2 ^ 32 := by
  rw [Blk.eventWith_flt]
  exact (b.eventLogged_logs code cls unit).2.1

theorem Blk.eventWith_outBit (i : Nat) : bit (b.eventWith code cls unit x).flt.out i = (bit b.flt.out i || decide (i = cls)) := by
  obtain ⟨hout, -, -⟩ := b.eventLogged_logs code cls unit
  rw [Blk.eventWith_flt, hout]
  show (b.flt.out ||| 2 ^ cls).testBit i = _
  rw [Nat.testBit_or, Nat.testBit_two_pow]
  simp only [bit, eq_comm]

/-- Class 0, and a bridge in reset or fenced, make no frame. -/
theorem Blk.eventWith_no_frame (h : cls = 0 ∨ ¬(b.ring.fenced = false ∧ b.pins.ringLow = false)) :
    (b.eventWith code cls unit x).ring.emcy = b.ring.emcy ∧ (b.eventWith code cls unit x).reg K.EMCY_LOST = b.reg K.EMCY_LOST := by
  obtain ⟨-, -, hring⟩ := b.eventLogged_logs code cls unit
  have hlost : (b.eventLogged code cls unit).reg K.EMCY_LOST = b.reg K.EMCY_LOST := by
    rw [Blk.eventLogged_reg _ _ _ _ _ (by decide), Blk.enterEvent_reg]; rfl
  rw [Blk.eventWith_eq]
  split
  · exact ⟨by rw [hring], hlost⟩
  · rename_i hc
    have : (b.eventLogged code cls unit).emergency b.eventPos code cls x = b.eventLogged code cls unit := by
      unfold Blk.emergency
      rw [hring, (b.eventLogged_only code cls unit).pins_eq, if_pos]
      rcases Decidable.not_and_iff_not_or_not.1 (h.resolve_left hc) with h | h <;> simp [h]
    rw [this, hring]
    exact ⟨rfl, hlost⟩

/-- A frame of an event of class 1 or more (13_evien.md R324): the next of the queue while fewer than eight wait, else lost. -/
theorem Blk.eventWith_frame (hc : cls ≠ 0) (h : b.ring.fenced = false ∧ b.pins.ringLow = false) :
    (b.ring.emcy.length < 8 → (b.eventWith code cls unit x).reg K.EMCY_LOST = b.reg K.EMCY_LOST
      ∧ (b.eventWith code cls unit x).ring.emcy = b.ring.emcy ++ [mkFrame (BitVec.ofNat 8 (b.rw K.RING_DEST)) 6 0 0x1003 b.eventPos
        (leBytes 2 code ++ [BitVec.ofNat 8 ((b.eventWith code cls unit x).errorRegWith x), BitVec.ofNat 8 cls]
          ++ leBytes 4 b.stamp.toNat)])
    ∧ (8 ≤ b.ring.emcy.length → (b.eventWith code cls unit x).ring.emcy = b.ring.emcy
      ∧ (b.eventWith code cls unit x).reg K.EMCY_LOST = min (b.reg K.EMCY_LOST + 1) 0xFFFFFFFF) := by
  obtain ⟨-, -, hring⟩ := b.eventLogged_logs code cls unit
  have honly := b.eventLogged_only code cls unit
  have hlost : (b.eventLogged code cls unit).reg K.EMCY_LOST = b.reg K.EMCY_LOST := by
    rw [Blk.eventLogged_reg _ _ _ _ _ (by decide), Blk.enterEvent_reg]; rfl
  have hrw : (b.eventLogged code cls unit).rw K.RING_DEST = b.rw K.RING_DEST := by
    unfold Blk.rw; rw [honly.rwWait_eq, honly.tick_eq, honly.reg_eq _ (by decide)]
  have hstamp : (b.eventLogged code cls unit).stamp = b.stamp := by unfold Blk.stamp; rw [honly.tick_eq]
  have hgate : ¬(((b.eventLogged code cls unit).ring.fenced || (b.eventLogged code cls unit).pins.ringLow) = true) := by
    rw [hring, honly.pins_eq]; simp [h]
  rw [Blk.eventWith_eq, if_neg hc, Blk.emergency_errorRegWith]
  unfold Blk.emergency
  rw [if_neg hgate, hring]
  constructor
  · intro hl
    rw [if_neg (by omega), hrw, hstamp]
    exact ⟨hlost, rfl⟩
  · intro hl
    rw [if_pos hl]
    exact ⟨by rw [Blk.count_ring, hring],
      (Blk.reg_setReg_self _ _ _).trans (congrArg (fun n => min (n + 1) 0xFFFFFFFF) hlost)⟩

end

/-- In Boot, and in Safe, `SAFE_CAUSE` and the rest stay: a cell-out event is only recorded (15_states_power.md R353, 16_faults.md R392). -/
theorem Blk.enterSafe_recorded {b : Blk} (code : Nat) (h : b.lc = .boot ∨ b.lc = .safe) : b.enterSafe code = b := by
  unfold Blk.enterSafe
  rcases h with h | h <;> rw [h]

/-- In Safe the error register shows it already. -/
theorem Blk.errorRegWith_safe {b : Blk} (h : b.lc = .safe) : b.errorRegWith 128 = b.errorReg := by
  have hor : ∀ r, r < 128 → Nat.lor 128 (r + 128) = Nat.lor 0 (r + 128) := by decide
  have hs : (b.lc == LC.safe) = true := by simp [h]
  unfold Blk.errorReg Blk.errorRegWith
  simp only [hs, reduceIte]
  rw [hor]
  exact Nat.lt_of_le_of_lt (Nat.add_le_add (Nat.add_le_add (Nat.add_le_add (Nat.add_le_add (Nat.add_le_add (ite_zero_le _ 2)
    (ite_zero_le _ 4)) (ite_zero_le _ 8)) (ite_zero_le _ 16)) (ite_zero_le _ 32)) (ite_zero_le _ 64)) (by decide)

/-- What `TICK_UNIT_MISMATCH` does where the cell is not to be taken out: its event, with the error register as it stands. -/
theorem exec_tickUnitMismatch_recorded (s : State) (h : s.blk.lc = .boot ∨ s.blk.lc = .safe) :
    exec .tickUnitMismatch s = s.becomes (({ s.blk with flt := { s.blk.flt with badTick := true } } : Blk).eventWith 0x0B01 3 255
      (if s.blk.lc = .boot then 0 else 128)) := by
  have hoff : s.blk.lc ≠ .off := by rcases h with h | h <;> simp [h]
  have hx : (if s.blk.lc = .boot ∨ s.blk.lc = .off then 0 else 128) = if s.blk.lc = .boot then 0 else 128 := by simp [hoff]
  refine s.upd_becomes ((if_neg hoff).trans ?_)
  unfold Blk.cellOut Blk.safeEvent
  rw [Blk.enterSafe_recorded, ← hx]
  rw [(Blk.eventWith_only _ _ _ _ _).lc_eq]
  exact h

/-- Settles O52. The second half is the first for the event of `TICK_UNIT_MISMATCH`, whose frame shows the Safe bit that stands. -/
theorem eventsEnterTheHistory : Obligations.EventsEnterTheHistory := by
  unfold Obligations.EventsEnterTheHistory
  intro entered
  have key (b : Blk) (code cls unit x : Nat) (h1 : 1 ≤ b.reg K.EH_NEXT) (h16 : b.reg K.EH_NEXT ≤ 16)
      (hx : (b.eventWith code cls unit x).errorRegWith x = (b.eventWith code cls unit x).errorReg) :
      entered b (b.eventWith code cls unit x) code cls unit := by
    have hp := Blk.eventPos_eq h1 h16
    have hframe := fun hc hb => Blk.eventWith_frame b code cls unit x hc hb
    rw [hp, hx] at hframe
    refine ⟨?_, Blk.eventWith_ehSeq .., ?_, ?_, ?_, ?_, Blk.eventWith_outBit b code cls unit x, Blk.eventWith_no_frame b code cls unit x,
      fun hc hb => (hframe hc hb).1, fun hc hb => (hframe hc hb).2⟩
    · rw [Blk.eventWith_recAt, hp, if_pos rfl]; rfl
    · intro i _ _ hi
      rw [Blk.eventWith_recAt, hp, if_neg (by omega)]
    · rw [Blk.eventWith_reg_of_ne _ _ _ _ _ _ (by decide) (by decide), Blk.enterEvent_reg, hp]
      show b.reg K.EH_NEXT % 16 + 1 = _
      split <;> omega
    · rw [Blk.eventWith_reg_of_ne _ _ _ _ _ _ (by decide) (by decide), Blk.enterEvent_reg]; rfl
    · rw [Blk.eventWith_reg_of_ne _ _ _ _ _ _ (by decide) (by decide), Blk.enterEvent_reg]; rfl
  refine ⟨fun b code cls unit h1 h16 => ⟨key b code cls unit 0 h1 h16 rfl, b.event_only code cls unit⟩, ?_⟩
  intro s hlc h1 h16
  refine ⟨_, exec_tickUnitMismatch_recorded s hlc, ⟨rfl, rfl⟩, key _ 0x0B01 3 255 _ h1 h16 ?_⟩
  rcases hlc with hlc | hlc
  · rw [if_pos hlc]; rfl
  · rw [if_neg (by simp [hlc])]
    exact Blk.errorRegWith_safe ((Blk.eventWith_only _ _ _ _ _).lc_eq.trans hlc)

end Sys2Proof.Machine
end

section
/-! 13_evien.md R313 to R316 and R323: forwarded and discarded frames, aborts and the heartbeat. -/

namespace Sys2Proof.Machine

/-! ### Ring frames -/

theorem Blk.bypass_iff (b : Blk) :
    b.bypass = true ↔ b.lc = .off ∨ b.pins.bridgeOn = false ∨ b.pins.ringLow = true ∨ b.ring.fenced = true := by
  simp [Blk.bypass, or_assoc]

/-- The bridge serves: it takes frames off the ring. -/
theorem Blk.bypass_eq_false {b : Blk} (h : ¬(b.lc = .off ∨ b.pins.bridgeOn = false ∨ b.pins.ringLow = true ∨ b.ring.fenced = true)) :
    b.bypass = false := by
  rw [← b.bypass_iff] at h
  exact Bool.eq_false_iff.2 h

section
variable {b : Blk} (f : List Byte)

theorem forwardFrame_bypass (h : b.bypass = true) : forwardFrame f b = { b with ring := { b.ring with sent := f } } := if_pos h

theorem forwardFrame_returned (h : b.bypass = false) (hs : byteAt f 1 = Config.nodeAddr) :
    forwardFrame f b = b.count K.RING_RETURNED := by
  simp [forwardFrame, h, hs]

theorem forwardFrame_own (h : b.bypass = false) (hs : byteAt f 1 ≠ Config.nodeAddr) (hd : byteAt f 0 = Config.nodeAddr) :
    forwardFrame f b = b := by
  simp [forwardFrame, h, hs, hd]

theorem forwardFrame_queued (h : b.bypass = false) (hs : byteAt f 1 ≠ Config.nodeAddr) (hd : byteAt f 0 ≠ Config.nodeAddr)
    (hq : b.ring.forward.length < 2) :
    forwardFrame f b = { b with ring := { b.ring with forward := b.ring.forward ++ [f] } } := by
  match hf : b.ring.forward with
  | [] => simp [forwardFrame, h, hs, hd, hf]
  | [g] => simp [forwardFrame, h, hs, hd, hf]
  | g :: k :: rest =>
    rw [hf, List.length_cons, List.length_cons] at hq
    omega

theorem forwardFrame_full (h : b.bypass = false) (hs : byteAt f 1 ≠ Config.nodeAddr) (hd : byteAt f 0 ≠ Config.nodeAddr)
    {g k : List Byte} (hq : b.ring.forward = [g, k]) :
    forwardFrame f b = { b with ring := { b.ring with sent := g, forward := [k, f] } } := by
  simp [forwardFrame, h, hs, hd, hq]

theorem frameDiscarded_badCrc (h : b.bypass = false) {early : Bool} (he : early = true ∨ frameCrcOk f = false) :
    frameDiscarded f early b = b.count K.RING_CRC_ERRS := by
  rcases he with he | he <;> simp [frameDiscarded, h, he]

theorem frameDiscarded_reserved (h : b.bypass = false) (hu : b.ringUp = true) (hc : frameCrcOk f = true)
    (hr : frameReserved f = true) :
    frameDiscarded f false b = b.abortReply (byteAt f 1).toNat (fieldAt f 4 2) (byteAt f 6).toNat 0x00010005 := by
  simp [frameDiscarded, h, hu, hc, hr]

end

theorem frameReserved_iff (f : List Byte) : frameReserved f = true ↔ (byteAt f 2).toNat % 16 = 0 ∨ 7 ≤ (byteAt f 2).toNat % 16 ∨
    (byteAt f 2).toNat / 16 % 8 ≠ 0 ∨ 16 ≤ (byteAt f 3).toNat ∨ 8 < (byteAt f 7).toNat := by
  simp [frameReserved, or_assoc]

/-! ### Aborts -/

theorem Blk.abortReply_answers (b : Blk) (node index sub code : Nat) : (b.abortReply node index sub code).ring.answers =
    b.ring.answers ++ [mkFrame (BitVec.ofNat 8 node) 0x84 0 index sub (leBytes 4 code)] := rfl

theorem Blk.abortReply_count (b : Blk) (node index sub code : Nat) :
    (b.abortReply node index sub code).reg K.RING_ABORTS_SENT = min (b.reg K.RING_ABORTS_SENT + 1) 0xFFFFFFFF :=
  Blk.reg_setReg_self _ _ _

/-- An abort is counted and recorded, and its frame waits among the answers; nothing else changes. -/
theorem Blk.abortReply_only (b : Blk) (node index sub code : Nat) : Only [K.RING_ABORTS_SENT] [K.RING_ABORT_LAST]
    { b with ring := { b.ring with answers := (b.abortReply node index sub code).ring.answers } }
    (b.abortReply node index sub code) := by
  have h : Only [K.RING_ABORTS_SENT] [K.RING_ABORT_LAST] b ((b.count K.RING_ABORTS_SENT).setRec K.RING_ABORT_LAST
      (leBytes 4 code ++ leBytes 2 index ++ [BitVec.ofNat 8 sub, BitVec.ofNat 8 node])) :=
    Only.setRec _ _ (.inl (by simp)) (Only.count _ _ _ (.inl (by simp)) (Only.refl _ _ b))
  exact h.reply node 0x84 0 index sub (leBytes 4 code)

/-! ### The heartbeat -/

/-- The heartbeat's count as it restarts; one that a boundary has made due has restarted there (13_evien.md R323). -/
def Ring.beaten (r : Ring) : Ring := if r.beatDue then { r with beatDue := false } else { r with hbCount := 0, hbWall := 0 }

theorem heartbeat_eq {b : Blk} (hu : b.ringUp = true) (ht : b.rw K.HEARTBEAT_TICKS ≠ 0) :
    heartbeat b = ({ b with ring := b.ring.beaten } : Blk).reply (b.rw K.RING_DEST) 5 0 0x1017 0 b.heartbeatBytes := by
  unfold heartbeat Ring.beaten
  rw [if_neg (by simp [hu, ht])]
  dsimp only
  split <;> rfl

theorem Ring.beaten_eq (r : Ring) : r.beaten.beatDue = false ∧ (r.beatDue = false → r.beaten.hbCount = 0 ∧ r.beaten.hbWall = 0)
    ∧ (r.beatDue = true → r.beaten.hbCount = r.hbCount ∧ r.beaten.hbWall = r.hbWall)
    ∧ r.beaten.answers = r.answers ∧ r.beaten.seg = r.seg ∧ r.beaten.emcy = r.emcy := by
  unfold Ring.beaten
  cases r.beatDue <;> simp

/-- Settles O48, by what `forwardFrame`, `frameDiscarded` and `heartbeat` do in each of their cases. -/
theorem framesAreForwardedCountedOrAnswered : Obligations.FramesAreForwardedCountedOrAnswered := by
  unfold Obligations.FramesAreForwardedCountedOrAnswered
  intro s f off crcOk
  refine ⟨fun h => s.upd_becomes (forwardFrame_bypass f (s.blk.bypass_iff.2 h)),
    fun h hs => s.upd_becomes (forwardFrame_returned f (Blk.bypass_eq_false h) hs),
    fun h hs hd hq => s.upd_becomes (forwardFrame_queued f (Blk.bypass_eq_false h) hs hd hq),
    fun h hs hd g k hq => s.upd_becomes (forwardFrame_full f (Blk.bypass_eq_false h) hs hd hq),
    fun h hs hd => s.upd_becomes (forwardFrame_own f (Blk.bypass_eq_false h) hs hd),
    fun h early he => s.upd_becomes (frameDiscarded_badCrc f (Blk.bypass_eq_false h) he), ?_, ?_⟩
  · intro h hu hc hr
    refine ⟨_, s.upd_becomes (frameDiscarded_reserved f (Blk.bypass_eq_false h) hu hc ((frameReserved_iff f).2 hr)), ⟨rfl, rfl⟩, ?_,
      Blk.abortReply_count .., Blk.abortReply_only ..⟩
    rw [Blk.abortReply_answers, BitVec.ofNat_toNat, BitVec.setWidth_eq]
  · intro hu ht
    obtain ⟨hdue, hrestart, hkeep, hans, hseg, hemcy⟩ := s.blk.ring.beaten_eq
    exact ⟨_, s.upd_becomes (heartbeat_eq hu ht), ⟨rfl, rfl⟩, hdue, hrestart, hkeep, congrArg (· ++ _) hans, rfl, hseg, hemcy⟩

end Sys2Proof.Machine
end

section
/-! What nothing waits for: the quiet block stays quiet where only the logs and single entries change. -/

namespace Sys2Proof.Machine

variable {rs ks : List Nat} {a b : Blk}

/-- Nothing of `Settled` reads a dictionary value or a log. -/
theorem Blk.settled_core (b : Blk) : b.core.Settled ↔ b.Settled := Iff.rfl

theorem Blk.unheld_core (b : Blk) : b.core.Unheld ↔ b.Unheld := Iff.rfl

theorem Only.settled (h : Only rs ks a b) (hs : a.Settled) : b.Settled :=
  b.settled_core.1 (h.core ▸ a.settled_core.2 hs)

theorem Only.unheld (h : Only rs ks a b) (hu : a.Unheld) : b.Unheld :=
  b.unheld_core.1 (h.core ▸ a.unheld_core.2 hu)

theorem Only.noteSet (h : Only rs ks a b) (k : Nat) : Only rs ks a (b.noteSet k) :=
  h.trans ⟨rfl, fun _ _ _ => rfl, fun _ _ _ => rfl, fun _ h => h⟩

theorem Only.setSync (i : Nat) (v : Bool) (hk : K.SYNC_STATE ∈ rs) (h : Only rs ks a b) : Only rs ks a (b.setSync i v) :=
  h.setReg _ _ (.inl hk)

/-- The end of all work goes on from what only the logs and single entries tell apart. -/
theorem Only.stopAll (h : Only rs ks a b) : Only rs ks a.stopAll b.stopAll :=
  ⟨(congrArg (fun c : Blk => c.stopAll) h.core :), h.reg, h.rcd, h.out⟩

theorem Only.engineGone_eq (h : Only rs ks a b) : b.engineGone = a.engineGone := by
  unfold Blk.engineGone
  rw [h.sr_eq, h.mx_eq]

/-- The work of a command ends with a record of `CMD_LAST` at most. -/
theorem Only.cmdDone (sub : Nat) (ok : Bool) (hk : K.CMD_LAST ∈ ks) (h : Only rs ks a b) : Only rs ks a (b.cmdDone sub ok) := by
  unfold Blk.cmdDone
  dsimp only
  split
  · exact h.setRec _ _ (.inl hk)
  · exact h

/-- One event stays the newest entry when a command's records are put in order. -/
theorem orderBlk_newest_one (a b : Blk) (h : b.flt.ehSeq = (a.flt.ehSeq + 1) % 2 ^ 32) : (orderBlk a b).newest = b.newest :=
  Blk.newest_congr (orderBlk_recs_one a b h) (orderBlk_reg a b K.EH_NEXT)

theorem Blk.Entered.ordered {code cls unit : Nat} (h : b.Entered code cls unit) (a : Blk)
    (hs : b.flt.ehSeq = (a.flt.ehSeq + 1) % 2 ^ 32) : (orderBlk a b).Entered code cls unit :=
  h.imp (orderBlk_newest_one a b hs).trans ((orderBlk_only a b).out cls)

theorem Blk.eventWith_entered (b : Blk) {code cls unit : Nat} (hc : code < 65536) (hl : cls < 256) (hu : unit < 256) (x : Nat) :
    (b.eventWith code cls unit x).Entered code cls unit := by
  refine ⟨?_, b.eventWith_out code cls unit x⟩
  rw [b.eventWith_newest, Nat.mod_eq_of_lt hc, Nat.mod_eq_of_lt hl, Nat.mod_eq_of_lt hu]

/-- The newest entry is read from the records of the error history only. -/
theorem Blk.newest_of_recAt {b c : Blk} (h : ∀ k, logRec k = true → c.recAt k = b.recAt k) (g : c.reg K.EH_NEXT = b.reg K.EH_NEXT) :
    c.newest = b.newest := by
  unfold Blk.newest
  rw [g, Blk.record_eq, Blk.record_eq, h _ (logRec_pos _)]

/-! ### Entry to Safe (15_states_power.md R353, R355) -/

theorem Blk.cmdDone_recAt (b : Blk) (sub : Nat) (ok : Bool) {k : Nat} (h : k ≠ K.CMD_LAST) : (b.cmdDone sub ok).recAt k = b.recAt k := by
  unfold Blk.cmdDone
  dsimp only
  split
  · rw [Blk.recAt_setRec, if_neg h]
  · rfl

theorem Blk.cmdDone_reg (b : Blk) (sub : Nat) (ok : Bool) (k : Nat) : (b.cmdDone sub ok).reg k = b.reg k := by
  unfold Blk.cmdDone
  dsimp only
  split <;> rfl

theorem Blk.endSR_recAt (b : Blk) (st : Nat) {k : Nat} (h : k ≠ K.CMD_LAST) : (b.endSR st).recAt k = b.recAt k := by
  unfold Blk.endSR
  split
  · rfl
  · dsimp only
    split
    · exact Blk.cmdDone_recAt _ _ _ h
    · rfl

/-- A save or restore in progress ends: the engine is idle, its access and the transfers of its image are gone. -/
theorem Blk.endSR_only (b : Blk) (st : Nat) (h : b.sr.phase ≠ 0) : Only [K.SR_STATUS] [K.CMD_LAST]
    { b with
      sr := { b.sr with phase := 0, tables := false, todo := [], op := none, late := false, hand := none }, mx := b.engineGone,
      xfers := b.withoutImage.xfers, outs := b.withoutImage.outs, ops := b.withoutImage.ops } (b.endSR st) := by
  unfold Blk.endSR Blk.engineGone
  rw [if_neg h, if_neg h]
  dsimp only
  split
  · exact (Only.setReg _ _ (.inl (by simp)) (Only.refl _ _ _)).cmdDone _ _ (by simp)
  · exact Only.setReg _ _ (.inl (by simp)) (Only.refl _ _ _)

/-- With no save or restore in progress nothing ends. -/
theorem Blk.endSR_idle {b : Blk} (st : Nat) (h : b.sr.phase = 0) : b.endSR st = b := if_pos h

theorem Blk.endSR_reg (b : Blk) (st : Nat) {k : Nat} (h : k ≠ K.SR_STATUS) : (b.endSR st).reg k = b.reg k := by
  unfold Blk.endSR
  split
  · rfl
  · dsimp only
    split
    · exact (Blk.cmdDone_reg _ _ _ _).trans (Blk.reg_setReg_ne _ _ h)
    · exact Blk.reg_setReg_ne _ _ h

/-- What is left once all work has ended, and a save or restore with it. -/
theorem Blk.stopAll_endSR_only (b : Blk) (st : Nat) : Only [K.SR_STATUS] [K.CMD_LAST]
    { b.stopAll with sr := (b.stopAll.endSR st).sr, mx := b.engineGone } (b.stopAll.endSR st) := by
  by_cases h : b.sr.phase = 0
  · have hg : b.engineGone = b.mx := if_pos h
    rw [Blk.endSR_idle st (b := b.stopAll) h, hg]
    exact Only.refl _ _ b.stopAll
  · have ho := b.stopAll.endSR_only st h
    rw [ho.sr_eq]
    exact ho

/-- The engine is idle behind it, and one that was at work shows status `st`. -/
theorem Blk.endSR_ended (b : Blk) (st : Nat) : (b.endSR st).sr.phase = 0 ∧ (b.sr.phase ≠ 0 → (b.endSR st).reg K.SR_STATUS = st) := by
  by_cases h : b.sr.phase = 0
  · rw [Blk.endSR_idle st h]
    exact ⟨h, fun hn => absurd h hn⟩
  · refine ⟨by rw [(b.endSR_only st h).sr_eq], fun _ => ?_⟩
    unfold Blk.endSR
    rw [if_neg h]
    dsimp only
    split
    · exact (Blk.cmdDone_reg _ _ _ _).trans (Blk.reg_setReg_self _ _ _)
    · exact Blk.reg_setReg_self _ _ _

/-- The state, the merge unit, the pins and the schedule thread as Safe leaves them. -/
theorem Only.safe_parts (h : Only rs ks a b) {p p' : Pins} {d : Sched} (hp : p' = p) (hd : d = a.sched) :
    Only rs ks { a with lc := .safe, sems := [], pins := p } { b with lc := .safe, sems := [], pins := p', sched := d } := by
  subst hp hd
  exact (((h.put_lc (v := .safe) rfl).put_sems (v := []) rfl).put_pins rfl).put_sched rfl

section
variable (code : Nat) (h : b.lc ≠ .off ∧ b.lc ≠ .boot ∧ b.lc ≠ .safe)
include h

theorem Blk.enterSafe_eq : b.enterSafe code =
    { ((b.stopAll.endSR 7).setReg K.SAFE_CAUSE code).setSync 2 false with
      lc := .safe, sems := [], pins := { (b.stopAll.endSR 7).pins with stopPend := 0 },
      sched := { (b.stopAll.endSR 7).sched with on := false } } := by
  have hs : ((b.stopAll.endSR 7).setReg K.SAFE_CAUSE code).reg K.SYNC_STATE = b.reg K.SYNC_STATE := by
    rw [Blk.reg_setReg_ne _ _ (by decide), Blk.endSR_reg _ _ (by decide)]; rfl
  obtain ⟨h1, h2, h3⟩ := h
  unfold Blk.enterSafe Blk.setSync
  rw [hs]
  split
  · exact absurd ‹_› h1
  · exact absurd ‹_› h2
  · exact absurd ‹_› h3
  · rfl

/-- What an entry to Safe changes: all work ends, and beside the save engine's own fields the cause, its status and the sync state. -/
theorem Blk.enterSafe_only : Only [K.SAFE_CAUSE, K.SR_STATUS, K.SYNC_STATE] [K.CMD_LAST]
    { b.stopAll with
      lc := .safe, sems := [], sr := (b.enterSafe code).sr, mx := b.engineGone, pins := { b.pins with stopPend := 0 } }
    (b.enterSafe code) := by
  have ho := b.stopAll_endSR_only 7
  have hr : Only [K.SAFE_CAUSE, K.SR_STATUS, K.SYNC_STATE] [K.CMD_LAST]
      { b.stopAll with sr := (b.stopAll.endSR 7).sr, mx := b.engineGone }
      (((b.stopAll.endSR 7).setReg K.SAFE_CAUSE code).setSync 2 false) :=
    Only.setSync 2 false (by simp) (Only.setReg _ _ (.inl (by simp)) (ho.mono (by simp) (by simp)))
  rw [Blk.enterSafe_eq code h]
  have hp : ({ (b.stopAll.endSR 7).pins with stopPend := 0 } : Pins) = { b.pins with stopPend := 0 } := by rw [ho.pins_eq]; rfl
  have hs : ({ (b.stopAll.endSR 7).sched with on := false } : Sched) = {} := by rw [ho.sched_eq]; rfl
  exact hr.safe_parts hp hs

theorem Blk.enterSafe_recAt {k : Nat} (hk : k ≠ K.CMD_LAST) : (b.enterSafe code).recAt k = b.recAt k := by
  rw [Blk.enterSafe_eq code h]
  exact Blk.endSR_recAt b.stopAll 7 hk

theorem Blk.enterSafe_reg {k : Nat} (hk : k ∉ [K.SAFE_CAUSE, K.SR_STATUS, K.SYNC_STATE]) : (b.enterSafe code).reg k = b.reg k := by
  simp only [List.mem_cons, List.not_mem_nil, or_false, not_or] at hk
  obtain ⟨hcause, hstatus, hsync⟩ := hk
  rw [Blk.enterSafe_eq code h]
  exact (Blk.reg_setReg_ne _ _ hsync).trans ((Blk.reg_setReg_ne _ _ hcause).trans (Blk.endSR_reg b.stopAll 7 hstatus))

theorem Blk.enterSafe_newest : (b.enterSafe code).newest = b.newest := by
  refine Blk.newest_of_recAt (fun k hk => Blk.enterSafe_recAt code h ?_) (Blk.enterSafe_reg code h (by decide))
  rintro rfl
  exact absurd hk (by decide)

theorem Blk.enterSafe_inSafe : b.InSafe (b.enterSafe code) code := by
  have ho := b.enterSafe_only code h
  obtain ⟨hphase, hstatus⟩ := b.stopAll.endSR_ended 7
  refine ⟨ho.lc_eq, ?_, ⟨ho.ops_eq, ho.xfers_eq, ho.outs_eq, ho.buses_eq, ho.reqs_eq, ho.sems_eq, ho.gather_eq, ho.gStaged_eq,
    ho.replayQ_eq, ho.replayNow_eq, ho.heldCfg_eq, ho.refused_eq, congrArg Sched.queue ho.sched_eq, congrArg TickUnit.holdOut ho.tick_eq,
    ho.writes_eq⟩, ?_, ?_, ?_, congrArg Pins.stopPend ho.pins_eq⟩ <;> rw [Blk.enterSafe_eq code h]
  · exact (Blk.reg_setReg_ne _ _ (by decide)).trans (Blk.reg_setReg_self _ _ _)
  · exact hphase
  · intro hp
    exact (Blk.reg_setReg_ne _ _ (by decide)).trans ((Blk.reg_setReg_ne _ _ (by decide)).trans (hstatus hp))
  · show ((((b.stopAll.endSR 7).setReg K.SAFE_CAUSE code)).setSync 2 false).reg K.SYNC_STATE = _
    unfold Blk.setSync
    rw [Blk.reg_setReg_self, Blk.reg_setReg_ne _ _ (by decide), Blk.endSR_reg _ _ (by decide)]
    rfl

end

end Sys2Proof.Machine
end

section
/-! 02_tick.md R36 to R47: pulses, misses and holds. -/

namespace Sys2Proof.Machine

variable {rs ks : List Nat} {a b : Blk}

theorem Blk.setSync_reg (b : Blk) (i : Nat) (v : Bool) (k : Nat) :
    (b.setSync i v).reg k = if k = K.SYNC_STATE then setBit (b.reg K.SYNC_STATE) i v else b.reg k := Blk.reg_setReg _ _ _ _

theorem Blk.count_reg (b : Blk) (k n w j : Nat) :
    (b.count k n w).reg j = if j = k then min (b.reg k + n) (2 ^ w - 1) else b.reg j := Blk.reg_setReg _ _ _ _

theorem Blk.noteSet_reg (b : Blk) (k j : Nat) : (b.noteSet k).reg j = b.reg j := rfl

/-! ### Misses (02_tick.md R39) -/

/-- The tick unit has counted a miss; `free`: it runs free from here on. -/
def Blk.withMiss (b : Blk) (free : Bool) : Blk :=
  { b with tick := { b.tick with missRun := b.tick.missRun + 1, missed := true, freeRun := free } }

theorem Blk.syncMiss_of_ne (h : b.tick.missRun + 1 ≠ b.cfg K.SYNC_MISS_LIMIT) :
    b.syncMiss = (b.withMiss b.tick.freeRun).count K.SYNC_MISSES := if_neg h

/-- The miss that reaches the limit, before its event: the lock is lost. -/
def Blk.syncLost (b : Blk) : Blk := ((((b.withMiss true).count K.SYNC_MISSES).noteSet 16).setSync 1 true).setSync 0 false

theorem Blk.syncMiss_of_eq (h : b.tick.missRun + 1 = b.cfg K.SYNC_MISS_LIMIT) : b.syncMiss = b.syncLost.event 0x0102 1 255 := if_pos h

theorem Blk.syncLost_only (b : Blk) : Only [K.SYNC_MISSES, K.SYNC_STATE] [] (b.withMiss true) b.syncLost :=
  Only.setSync 0 false (by simp) (Only.setSync 1 true (by simp) (Only.noteSet (Only.count _ _ _ (.inl (by simp)) (Only.refl _ _ _)) 16))

theorem Blk.syncLost_reg (b : Blk) : b.syncLost.reg K.SYNC_MISSES = min (b.reg K.SYNC_MISSES + 1) 0xFFFFFFFF
    ∧ b.syncLost.reg K.SYNC_STATE = setBit (setBit (b.reg K.SYNC_STATE) 1 true) 0 false := by
  unfold Blk.syncLost
  simp only [Blk.setSync_reg, Blk.noteSet_reg, Blk.count_reg]
  exact ⟨rfl, rfl⟩

/-- The sequence number goes on by one with the event of a lost sync, and stays without one. -/
theorem Blk.syncMiss_ehSeq (b : Blk) : b.syncMiss.flt.ehSeq =
    if b.tick.missRun + 1 = b.cfg K.SYNC_MISS_LIMIT then (b.flt.ehSeq + 1) % 2 ^ 32 else b.flt.ehSeq := by
  split
  · rename_i h
    rw [Blk.syncMiss_of_eq h]
    exact Blk.eventWith_ehSeq _ _ _ _ _
  · rename_i h
    rw [Blk.syncMiss_of_ne h]
    rfl

theorem Blk.syncMiss_missTaken (b : Blk) : MissTaken b b.syncMiss { b.tick with missed := true } := by
  unfold MissTaken
  dsimp only
  by_cases h : b.tick.missRun + 1 = b.cfg K.SYNC_MISS_LIMIT
  · obtain ⟨hmisses, hstate⟩ := b.syncLost_reg
    rw [Blk.syncMiss_of_eq h, decide_eq_true h, Bool.true_or]
    refine ⟨b.syncLost_only.event 0x0102 1 255, (Blk.event_reg _ _ _ _ _ (by decide)).trans hmisses,
      fun _ => ⟨(Blk.event_reg _ _ _ _ _ (by decide)).trans hstate, ?_⟩, fun hn => absurd h hn⟩
    exact Blk.eventWith_entered _ (by decide) (by decide) (by decide) 0
  · rw [Blk.syncMiss_of_ne h, decide_eq_false h, Bool.false_or]
    exact ⟨Only.count _ _ _ (.inl (by simp)) (Only.refl _ _ _), Blk.reg_setReg_self _ _ _, fun hl => absurd hl h,
      fun _ => Blk.reg_setReg_ne _ _ (by decide)⟩

/-- A miss stays one when the records of its command are put in order. -/
theorem MissTaken.ordered {u : TickUnit} (h : MissTaken a b u)
    (hs : a.tick.missRun + 1 = a.cfg K.SYNC_MISS_LIMIT → b.flt.ehSeq = (a.flt.ehSeq + 1) % 2 ^ 32) : MissTaken a (orderBlk a b) u := by
  obtain ⟨honly, hmisses, hlost, hkept⟩ := h
  refine ⟨honly.ordered a, (orderBlk_reg ..).trans hmisses, fun hl => ?_, fun hl => (orderBlk_reg ..).trans (hkept hl)⟩
  obtain ⟨hstate, hentered⟩ := hlost hl
  exact ⟨(orderBlk_reg ..).trans hstate, hentered.ordered a (hs hl)⟩

/-- The close of the late window follows a miss of its own. -/
theorem MissTaken.windowClosed {u : TickUnit} (h : MissTaken a b u) :
    MissTaken a { b with tick := { b.tick with lateOpen := false, missed := false } } { u with lateOpen := false, missed := false } := by
  obtain ⟨honly, hmisses, hlost, hkept⟩ := h
  exact ⟨honly.put_tick (congrArg (fun t : TickUnit => { t with lateOpen := false, missed := false }) honly.tick_eq), hmisses, hlost, hkept⟩

/-! ### Pulses (01_boundary.md R16; 02_tick.md R36) -/

/-- A command whose change leaves nothing to serve: its records are put in order. -/
theorem State.cyc_serve (s : State) (g : Blk → Blk) (hs : (g s.blk).Settled) (hu : (g s.blk).Unheld) :
    s.cyc (fun st b => (g b).serve st) = { s with blk := orderBlk s.blk (g s.blk) } := by
  unfold State.cyc State.upd State.ordered
  dsimp only
  rw [Blk.serve_calm s.mem _ hs hu]

theorem syncInPulse_ignored (w : Nat) (h : b.lc = .off ∨ b.cfg K.SYNC_MODE = 0) : syncInPulse w b = b :=
  if_pos (by simpa using h)

theorem syncInPulse_glitch {w : Nat} (hoff : b.lc ≠ .off) (hm : b.cfg K.SYNC_MODE ≠ 0) (hw : w < 4) :
    syncInPulse w b = b.count K.SYNC_GLITCHES := by
  unfold syncInPulse
  rw [if_neg (by simp [hoff, hm]), if_pos hw]

/-- Ticks run in Running, Holding and Draining only (15_states_power.md R352). -/
theorem Blk.lc_of_ticking (h : b.ticking = true) : b.lc ≠ .off ∧ b.lc ≠ .boot ∧ b.lc ≠ .safe ∧ b.lc ≠ .armed := by
  refine ⟨?_, ?_, ?_, ?_⟩ <;> intro hl <;> simp [Blk.ticking, hl] at h

theorem syncInPulse_ticking {w : Nat} (ht : b.ticking = true) (hm : b.cfg K.SYNC_MODE = 1) (hw : 4 ≤ w) :
    syncInPulse w b = b.syncPulse := by
  obtain ⟨hoff, -, -, harmed⟩ := Blk.lc_of_ticking ht
  unfold syncInPulse Blk.awaitsTick
  rw [if_neg (by simp [hoff, hm]), if_neg (by omega), if_neg (by simp [harmed]), if_pos ht]

theorem Blk.syncPulse_outside (he : b.tick.unheld + b.cfg K.SYNC_WINDOW < b.cfg K.TICK_LEN + b.tick.ext)
    (hl : b.tick.lateOpen = false ∨ b.cfg K.SYNC_WINDOW ≤ b.tick.unheld) : b.syncPulse = b.syncMiss := by
  unfold Blk.syncPulse Blk.tickUnheld
  dsimp only
  rw [if_neg (by omega), if_neg]
  rcases hl with hl | hl <;> simp [hl]

/-- What `SYNC_WINDOW_CLOSE` does while a late window is open. -/
theorem execSyncWindowClose_open (s : State) (ht : s.blk.ticking = true) (hm : s.blk.cfg K.SYNC_MODE = 1)
    (ho : s.blk.tick.lateOpen = true) : exec .syncWindowClose s =
      s.becomes (let c := if s.blk.tick.lateSeen || s.blk.tick.missed then s.blk else s.blk.syncMiss
        { c with tick := { c.tick with lateOpen := false, missed := false } }) :=
  s.upd_becomes (if_neg (by simp [ht, hm, ho]))

/-- Settles O14, by cases of the filter, the windows and the open late window; a miss is `syncMiss_missTaken`. -/
theorem syncGlitchesAndMisses : Obligations.SyncGlitchesAndMisses := by
  unfold Obligations.SyncGlitchesAndMisses
  refine ⟨fun s w hcalm => ?_, fun s ht hm => ⟨fun w hcalm hw he hl => ?_, fun ho hseen hmiss => ?_, fun ho hdone => ?_⟩⟩
  · obtain ⟨hs, hu, -, -⟩ := hcalm
    constructor
    · intro h
      show Host.Outcome.next (s.cyc _) = _
      rw [State.cyc_serve s (syncInPulse w) (by rwa [syncInPulse_ignored w h]) (by rwa [syncInPulse_ignored w h]),
        syncInPulse_ignored w h, orderBlk_same _ _ rfl rfl]
    · intro hoff hm hw
      have hg := syncInPulse_glitch hoff hm hw
      have ho : Only [K.SYNC_GLITCHES] [] s.blk (syncInPulse w s.blk) := by
        rw [hg]; exact Only.count _ _ _ (.inl (by simp)) (Only.refl _ _ _)
      show Host.Outcome.next (s.cyc _) = _
      rw [State.cyc_serve s (syncInPulse w) (ho.settled hs) (ho.unheld hu), hg, orderBlk_same s.blk (s.blk.count K.SYNC_GLITCHES) rfl rfl]
  · obtain ⟨hs, hu, -, -⟩ := hcalm
    have hp : syncInPulse w s.blk = s.blk.syncMiss := (syncInPulse_ticking ht hm hw).trans (Blk.syncPulse_outside he hl)
    have hmiss := s.blk.syncMiss_missTaken
    obtain ⟨honly, -, -, -⟩ := id hmiss
    refine ⟨{ s with blk := orderBlk s.blk s.blk.syncMiss }, ?_, ⟨rfl, rfl⟩, hmiss.ordered fun h => ?_⟩
    · show Host.Outcome.next (s.cyc _) = _
      rw [State.cyc_serve s (syncInPulse w), hp] <;> rw [hp]
      · exact honly.settled hs
      · exact honly.unheld hu
    · rw [Blk.syncMiss_ehSeq, if_pos h]
  · refine ⟨_, execSyncWindowClose_open s ht hm ho, ⟨rfl, rfl⟩, ?_⟩
    rw [hseen, hmiss]
    exact s.blk.syncMiss_missTaken.windowClosed
  · rw [execSyncWindowClose_open s ht hm ho, if_pos (by simpa using hdone)]

/-! ### Holds (01_boundary.md R18; 02_tick.md R45 to R47) -/

/-- A held cycle is counted for its tick and in all, and the tick among those held where it is the first (R47). -/
theorem Blk.heldCycle_only (b : Blk) : Only [K.HOLD_CYCLES, K.HOLD_TICKS] []
    { b with tick := { b.tick with heldTick := b.tick.heldTick + 1, heldNow := b.tick.heldNow + 1 } } b.heldCycle := by
  unfold Blk.heldCycle
  dsimp only
  split
  · exact Only.count K.HOLD_CYCLES 1 64 (.inl (by simp)) (Only.count K.HOLD_TICKS 1 32 (.inl (by simp)) (Only.refl _ _ _))
  · exact Only.count K.HOLD_CYCLES 1 64 (.inl (by simp)) (Only.refl _ _ _)

theorem Blk.heldCycle_reg (b : Blk) : b.heldCycle.reg K.HOLD_CYCLES = min (b.reg K.HOLD_CYCLES + 1) (2 ^ 64 - 1)
    ∧ b.heldCycle.reg K.HOLD_TICKS =
      if b.tick.heldTick = 0 then min (b.reg K.HOLD_TICKS + 1) 0xFFFFFFFF else b.reg K.HOLD_TICKS := by
  unfold Blk.heldCycle
  dsimp only
  split
  · have hc : (b.count K.HOLD_TICKS).reg K.HOLD_CYCLES = b.reg K.HOLD_CYCLES := Blk.reg_setReg_ne _ _ (by decide)
    rw [← hc]
    exact ⟨Blk.reg_setReg_self _ _ _, (Blk.reg_setReg_ne _ _ (by decide)).trans (Blk.reg_setReg_self _ _ _)⟩
  · exact ⟨Blk.reg_setReg_self _ _ _, Blk.reg_setReg_ne _ _ (by decide)⟩

/-- The block in the first cycle of a hold, before the cycle is counted. -/
def Blk.frozenNow (b : Blk) : Blk :=
  { b with
    lc := if b.lc = LC.running then LC.holding else b.lc,
    tick := { b.tick with frozen := true, heldNow := 0, freezeAt := b.tick.freezeAt.tail } }

theorem counterFreeze_eq (ht : b.ticking = true) (hf : b.tick.frozen = false) (hn : b.tick.freezeAt ≠ []) :
    counterFreeze b = b.frozenNow.heldCycle.traceRec 3 2 [BitVec.ofNat 8 b.frozenNow.holdCauses] :=
  if_neg (by simp [ht, hf, hn])

/-- The block as the counter goes on. -/
def Blk.resumedNow (b : Blk) : Blk :=
  { b with
    lc := if b.lc = LC.holding then LC.running else b.lc,
    tick := { b.tick with frozen := false, heldNow := 0, resumeAt := b.tick.resumeAt.tail } }

theorem counterResume_eq (ht : b.ticking = true) (hf : b.tick.frozen = true) (hn : b.tick.resumeAt ≠ []) :
    counterResume b = b.resumedNow.traceRec 4 2 (leBytes 4 b.tick.heldNow) :=
  if_neg (by simp [ht, hf, hn])

/-- The block as a hold-network fault is found (R45). -/
def Blk.netFaulted (b : Blk) : Blk := { b with tick := { b.tick with netFault := true } }

theorem exec_holdNetworkFault_found (s : State) (ht : s.blk.ticking = true) (ho : s.blk.tick.holdOut.isSome = true)
    (hs : s.blk.tick.holdSeen = false) (hn : s.blk.tick.netFault = false) :
    exec .holdNetworkFault s = s.becomes (s.blk.netFaulted.event 0x0104 1 255) :=
  s.upd_becomes (if_pos (by simp [ht, ho, hs, hn]))

theorem Blk.holdCauses_lt (b : Blk) : b.holdCauses < 8 := by
  unfold Blk.holdCauses
  exact Nat.lt_of_le_of_lt (Nat.add_le_add (Nat.add_le_add (ite_zero_le _ 1) (ite_zero_le _ 2)) (ite_zero_le _ 4)) (by decide)

/-- The same entry to Safe, from what only the logs and single entries tell apart. -/
theorem Only.enterSafe {code : Nat} (h : Only rs ks a b) (hl : a.lc ≠ .off ∧ a.lc ≠ .boot ∧ a.lc ≠ .safe)
    (hr : ∀ k ∈ [K.SAFE_CAUSE, K.SR_STATUS, K.SYNC_STATE], k ∈ rs) (hk : K.CMD_LAST ∈ ks) :
    Only rs ks { a.stopAll with
      lc := .safe, sems := [], sr := (b.enterSafe code).sr, mx := a.engineGone, pins := { a.pins with stopPend := 0 } }
      (b.enterSafe code) := by
  have hs := (Blk.enterSafe_only code (by rwa [h.lc_eq])).mono hr (by simpa using hk)
  have hp := congrArg (fun p : Pins => { p with stopPend := 0 }) h.pins_eq
  exact (((((h.stopAll.put_lc (v := .safe) rfl).put_sems (v := []) rfl).put_sr rfl).put_mx h.engineGone_eq).put_pins hp).trans hs

/-- What `TICK_ABORT` does to a tick that is held (R47). -/
def Blk.aborted (b : Blk) : Blk := (b.count K.TICK_ABORTS).eventWith 0x0106 2 b.holdCauses 128

theorem Blk.aborted_only (b : Blk) : Only [K.TICK_ABORTS] [] b b.aborted :=
  (Only.count _ _ _ (.inl (by simp)) (Only.refl _ _ _)).eventWith _ _ _ _

theorem Blk.aborted_reg (b : Blk) (k : Nat) (hk : k ∉ logRegs) :
    b.aborted.reg k = if k = K.TICK_ABORTS then min (b.reg K.TICK_ABORTS + 1) 0xFFFFFFFF else b.reg k :=
  (Blk.eventWith_reg _ _ _ _ _ _ hk).trans (Blk.count_reg _ _ _ _ _)

theorem exec_tickAbort_frozen (s : State) (ht : s.blk.ticking = true) (hf : s.blk.tick.frozen = true) :
    exec .tickAbort s = s.becomes (s.blk.aborted.enterSafe 0x0106) := by
  obtain ⟨hoff, hboot, -, -⟩ := Blk.lc_of_ticking ht
  refine s.upd_becomes ((if_pos (by simp [ht, hf])).trans ?_)
  unfold Blk.safeEvent
  rw [if_neg (by simp [hoff, hboot])]
  rfl

/-- Settles O16, by the cases of the pin's edges, the first held cycle and the resumption, the network fault and the abort. -/
theorem holdsFreezeAndFault : Obligations.HoldsFreezeAndFault := by
  unfold Obligations.HoldsFreezeAndFault
  refine ⟨fun s => ⟨fun h => ?_, fun h => ⟨fun hc => ?_, fun hc => ?_⟩⟩, fun s ht => ⟨fun hf hn => ?_, fun hf hn => ?_⟩,
    fun s ht => ⟨fun hout hseen hnet => ?_, fun hf => ?_⟩⟩
  · exact s.upd_becomes (if_neg (by simp [h]))
  · exact s.upd_becomes ((if_neg (by simp [h])).trans (if_pos (by simpa using hc)))
  · exact s.upd_becomes ((if_neg (by simp [h])).trans (if_neg (by simpa using hc)))
  · obtain ⟨hcycles, hticks⟩ := s.blk.frozenNow.heldCycle_reg
    exact ⟨_, s.upd_becomes (counterFreeze_eq ht hf hn), ⟨rfl, rfl⟩, (Blk.traceRec_reg _ _ _ _ _ (by decide)).trans hcycles,
      (Blk.traceRec_reg _ _ _ _ _ (by decide)).trans hticks, s.blk.frozenNow.heldCycle_only.traceRec _ _ _⟩
  · exact ⟨_, s.upd_becomes (counterResume_eq ht hf hn), ⟨rfl, rfl⟩, (Only.refl _ _ s.blk.resumedNow).traceRec _ _ _⟩
  · exact ⟨_, exec_holdNetworkFault_found s ht hout hseen hnet, ⟨rfl, rfl⟩,
      Blk.eventWith_entered _ (by decide) (by decide) (by decide) 0, s.blk.netFaulted.event_only 0x0104 1 255⟩
  · obtain ⟨hoff, hboot, hsafe, -⟩ := Blk.lc_of_ticking ht
    have ha := s.blk.aborted_only
    have hl : s.blk.aborted.lc ≠ .off ∧ s.blk.aborted.lc ≠ .boot ∧ s.blk.aborted.lc ≠ .safe := by
      rw [ha.lc_eq]; exact ⟨hoff, hboot, hsafe⟩
    obtain ⟨-, hcause, hstop, hphase, -, hsync, -⟩ := Blk.enterSafe_inSafe 0x0106 hl
    obtain ⟨hnew, hbit⟩ := (s.blk.count K.TICK_ABORTS).eventWith_entered (code := 0x0106) (cls := 2) (unit := s.blk.holdCauses)
      (by decide) (by decide) (by have := s.blk.holdCauses_lt; omega) 128
    refine ⟨_, exec_tickAbort_frozen s ht hf, ⟨rfl, rfl⟩,
      ⟨(Blk.enterSafe_newest 0x0106 hl).trans hnew, (Blk.enterSafe_only 0x0106 hl).out 2 hbit⟩, hphase, ?_, ?_, hcause, ?_, ?_⟩
    · unfold Blk.Stopped at hstop ⊢
      rwa [ha.writes_eq] at hstop
    · exact (Blk.enterSafe_reg 0x0106 hl (by decide)).trans (s.blk.aborted_reg _ (by decide))
    · rw [hsync, s.blk.aborted_reg _ (by decide)]; rfl
    · exact (ha.mono (by simp) (by simp)).enterSafe ⟨hoff, hboot, hsafe⟩ (by simp) (by simp)

end Sys2Proof.Machine
end

section
/-! Masks: the bits of a sum of powers of two, and of a value from which such bits are taken. -/

namespace Sys2Proof.Machine

/-- A number is its bits outside a mask and its bits inside it. -/
theorem xor_land_add_land (x m : Nat) : (x ^^^ (x &&& m)) + (x &&& m) = x := by
  induction x using Nat.strongRecOn generalizing m with
  | ind x ih =>
    by_cases hx : x = 0
    · subst hx; simp only [Nat.zero_and, Nat.zero_xor]
    · have h := ih (x / 2) (by omega) (m / 2)
      have hand : (x &&& m) / 2 = x / 2 &&& m / 2 := Nat.and_div_two
      have hxor : (x ^^^ (x &&& m)) / 2 = x / 2 ^^^ (x &&& m) / 2 := Nat.xor_div_two
      have handOdd := Nat.and_mod_two_eq_one (a := x) (b := m)
      have hxorOdd := Nat.xor_mod_two_eq_one (a := x) (b := x &&& m)
      rw [hand] at hxor
      omega

theorem bit_sub_land (x m i : Nat) : bit (x - Nat.land x m) i = (bit x i && !bit m i) := by
  have hland : Nat.land x m = x &&& m := rfl
  have h : x - Nat.land x m = x ^^^ (x &&& m) := by have := xor_land_add_land x m; omega
  unfold bit
  rw [h, Nat.testBit_xor, Nat.testBit_and]
  cases x.testBit i <;> cases m.testBit i <;> rfl

/-- The number whose bits below `n` are given by `c`. -/
def maskOf (n : Nat) (c : Nat → Bool) : Nat := ((List.range n).map (fun i => if c i then 2 ^ i else 0)).sum

theorem maskOf_succ (n : Nat) (c : Nat → Bool) : maskOf (n + 1) c = maskOf n c + if c n then 2 ^ n else 0 := by
  simp [maskOf, List.range_succ]

theorem maskOf_lt (n : Nat) (c : Nat → Bool) : maskOf n c < 2 ^ n := by
  induction n with
  | zero => simp [maskOf]
  | succ n ih => rw [maskOf_succ, Nat.pow_succ]; split <;> omega

theorem bit_maskOf (n : Nat) (c : Nat → Bool) (i : Nat) : bit (maskOf n c) i = (decide (i < n) && c i) := by
  induction n with
  | zero => simp [maskOf, bit]
  | succ n ih =>
    have hor : maskOf (n + 1) c = (if c n then 2 ^ n else 0) ||| maskOf n c := by
      rw [maskOf_succ, Nat.add_comm]
      split
      · have := Nat.two_pow_add_eq_or_of_lt (maskOf_lt n c) 1
        simpa using this
      · simp
    have ih' : Nat.testBit (maskOf n c) i = (decide (i < n) && c i) := ih
    rw [bit, hor, Nat.testBit_or, ih']
    rcases Nat.lt_trichotomy i n with h | rfl | h
    · split <;> simp [h, Nat.lt_succ_of_lt h, Nat.ne_of_gt h]
    · cases hc : c i <;> simp
    · split <;> simp [Nat.ne_of_lt h, Nat.not_lt.2 (Nat.le_of_lt h), Nat.not_lt.2 h]

/-- What a clear of the bits `v` leaves of `x`, but for the bits that `keep` protects. -/
theorem bit_clear {n v : Nat} (hv : v < 2 ^ n) (keep : Nat → Bool) (x i : Nat) :
    bit (x - Nat.land x (maskOf n (fun t => bit v t && !keep t))) i = (bit x i && !(bit v i && !keep i)) := by
  rw [bit_sub_land, bit_maskOf]
  by_cases h : i < n
  · simp [h]
  · have hb : bit v i = false := Nat.testBit_lt_two_pow (Nat.lt_of_lt_of_le hv (Nat.pow_le_pow_right (by decide) (Nat.not_lt.1 h)))
    simp [hb]

/-- Bits of `x` that `c` selects. -/
theorem land_maskOf (n : Nat) (c : Nat → Bool) (x : Nat) : Nat.land x (maskOf n c) = maskOf n (fun i => c i && bit x i) := by
  apply Nat.eq_of_testBit_eq
  intro i
  show (x &&& maskOf n c).testBit i = bit (maskOf n _) i
  have h : (maskOf n c).testBit i = (decide (i < n) && c i) := bit_maskOf n c i
  rw [Nat.testBit_and, h, bit_maskOf]
  show (x.testBit i && _) = (_ && (_ && x.testBit i))
  cases x.testBit i <;> simp

end Sys2Proof.Machine
end

section
/-! 13_evien.md R318, 14_dictionary.md R332 and R333: a write request that is taken at once, and accepted. -/

namespace Sys2Proof.Machine

variable {rs ks : List Nat} {a b : Blk}

theorem Only.calm (h : Only rs ks a b) (hc : a.Calm) (ht : b.flt.trWait = []) : b.Calm := by
  obtain ⟨hs, hu, hw, -⟩ := hc
  exact ⟨h.settled hs, h.unheld hu, h.mx_eq ▸ hw, ht⟩

theorem Blk.answered_reg (b : Blk) (node k j : Nat) : (b.answered node k).reg j = b.reg j := rfl
theorem Blk.answered_recAt (b : Blk) (node k j : Nat) : (b.answered node k).recAt j = b.recAt j := rfl
theorem Blk.answered_trace (b : Blk) (node k : Nat) : (b.answered node k).trace = b.trace := rfl
theorem Blk.answered_flt (b : Blk) (node k : Nat) : (b.answered node k).flt = b.flt := rfl
theorem Blk.answered_tile (b : Blk) (node k i : Nat) : (b.answered node k).tile i = b.tile i := rfl

theorem Only.answered (h : Only rs ks a b) (node k : Nat) : Only rs ks (a.answered node k) (b.answered node k) := h.reply ..

/-! ### A request that nothing holds up (13_evien.md R318) -/

theorem ringTake_idle {s : State} (h : s.blk.RingIdle) (c : Instr) (acc : Option (Nat × Nat × Bool)) (run : State → State) :
    ringTake c acc run s = run s := by
  obtain ⟨hup, hq, hnow, hlocks, hwaits, -⟩ := h
  have hfree (k t : Nat) : s.blk.ringBlocked k t = false := by
    simp [Blk.ringBlocked, Blk.lockOf, Blk.targetBusy, Blk.mxOpen, hlocks, hwaits]
  unfold ringTake
  rw [if_neg (by simp [hup]), if_neg (by simp [hq]), hnow]
  dsimp only
  have hacc : acc.any (fun x => s.blk.ringBlocked x.1 x.2.1) = false := by cases acc <;> simp [hfree]
  rw [if_neg (Bool.eq_false_iff.1 hacc)]
  rfl

/-- A write of one entry that passes every check, by a request that is taken at once, where nothing waits behind its effect `m`: the
effect, the answer, and the records of the command in order. -/
theorem commandWrite_accepted {s : State} {node v : Nat} {e : Entry} {m : Store × Blk} (hr : s.blk.RingIdle)
    (he : entryAt e.key = some e) (hv : v < 256 ^ e.lo)
    (hf : scalarFail s.mem s.blk (e.key / 256) (e.key % 256) e.lo v = .inr e) (hc : isCommand e.key = false) (hp : e.key ≠ K.PWR_BLOCK)
    (hm : scalarEffect e v (s.mem, s.blk) = m) (hq : m.2.Calm) :
    commandWrite node e.key v s = { s with mem := m.1, blk := orderBlk s.blk (m.2.answered node e.key) } := by
  have hcalm : (m.2.answered node e.key).Calm := hq
  obtain ⟨hs, hu, hw, ht⟩ := hcalm
  unfold commandWrite
  rw [he]
  dsimp only
  rw [if_pos hv]
  unfold requestWrite
  rw [ringTake_idle hr]
  unfold scalarWrite
  rw [hf]
  have hnote : s.upd (fun _ b => b.noteCommand e.key 0 0) = s := by
    show ({ s with blk := s.blk.noteCommand e.key 0 0 } : State) = s
    unfold Blk.noteCommand
    rw [if_neg (by simp [hc])]
  have hacc : acceptScalar e v s = { s with mem := m.1, blk := m.2 } := by
    unfold acceptScalar
    rw [if_neg hp]
    dsimp only
    rw [hm]
  dsimp only
  rw [hnote, hacc]
  have hserve : (({ s with mem := m.1, blk := m.2 } : State).upd
      (fun _ b => b.reply node 0x82 0 (e.key / 256) (e.key % 256) [])).upd (fun st b => b.serve st)
      = { s with mem := m.1, blk := m.2.answered node e.key } := by
    show ({ s with mem := m.1, blk := (m.2.answered node e.key).serve m.1 } : State) = _
    rw [Blk.serve_calm m.1 _ hs hu]
  rw [hserve, State.mxServe_none _ hw ht]
  rfl

/-! ### The clear entries (14_dictionary.md R351) -/

/-- The entries whose write clears something, as the dictionary lists them. -/
def clearEntries : List Entry :=
  [⟨K.FAULT_ACK, .uns, .wo, 1, 1, .mask 0x7⟩, ⟨K.SYNC_LOST_CLEAR, .uns, .wo, 1, 1, .span 0 1⟩,
   ⟨K.DEAD_READ_CLEAR, .uns, .wo, 1, 1, .spanOr 0 127 255⟩, ⟨K.EH_COUNT, .uns, .rw, 1, 1, .span 0 0⟩,
   ⟨K.HOG_FLAGS_CLEAR, .uns, .wo, 1, 1, .spanOr 0 5 255⟩, ⟨K.MX_LOCK_CLEAR, .uns, .wo, 2, 2, .mask 0x3FF⟩,
   ⟨K.TRACE_CLEAR, .uns, .wo, 1, 1, .span 1 1⟩, ⟨K.ANISE_COLD_CLEAR, .uns, .wo, 1, 1, .span 0 1⟩]

theorem entryAt_clear : ∀ e ∈ clearEntries, entryAt e.key = some e := by decide +kernel

theorem object_clear : ∀ e ∈ clearEntries, objects.any (fun o => o.1 == e.key / 256) = true := by decide +kernel

/-- A clear entry is writable, is a number, and is no command of `0x2F00`. -/
theorem kind_clear : ∀ e ∈ clearEntries, (e.acc ≠ .const ∧ e.acc ≠ .ro) ∧ e.typ = .uns ∧ e.lo ≤ e.hi ∧ isCommand e.key = false
    ∧ e.key ≠ K.PWR_BLOCK ∧ e.key ≠ K.PWR_IDLE_GROUPS := by decide +kernel

/-- No state of the block, no work in progress and no condition forbids a clear. -/
theorem unchecked_clear (st : Store) (b : Blk) (v : Nat) : ∀ e ∈ clearEntries,
    stateFail b e v = none ∧ busyFail b e v = false ∧ conditionFails st b e v = false := by
  simp only [clearEntries, List.forall_mem_cons]
  exact ⟨⟨rfl, rfl, rfl⟩, ⟨rfl, rfl, rfl⟩, ⟨rfl, rfl, rfl⟩, ⟨rfl, rfl, rfl⟩, ⟨rfl, rfl, rfl⟩, ⟨rfl, rfl, rfl⟩, ⟨rfl, rfl, rfl⟩,
    ⟨rfl, rfl, rfl⟩, by simp⟩

theorem scalarFail_clear {e : Entry} (h : e ∈ clearEntries) (st : Store) {b : Blk} (hb : b.lc ≠ .boot) {v : Nat} (hv : e.rng.ok v = true) :
    scalarFail st b (e.key / 256) (e.key % 256) e.lo v = .inr e := by
  obtain ⟨⟨hconst, hro⟩, htyp, hlo, -, -, hidle⟩ := kind_clear e h
  obtain ⟨hstate, hbusy, hcond⟩ := unchecked_clear st b v e h
  have hfind : findEntry b (e.key / 256) (e.key % 256) = .inr e := by
    have hk : 256 * (e.key / 256) + e.key % 256 = e.key := Nat.div_add_mod ..
    unfold findEntry
    rw [if_neg (by simp [object_clear e h]), if_neg (by simp [hb]), if_neg (by have := Nat.mod_lt e.key (y := 256) (by decide); omega), hk,
      entryAt_clear e h]
  have hfit : kindFits st b e false = true := by simp [kindFits, htyp]
  have hwrite : writeFail st b false (e.key / 256) (e.key % 256) e.lo v = .inr e := by
    unfold writeFail
    rw [hfind]
    dsimp only
    rw [if_neg (by simp [hconst, hro]), if_neg (by simp [hfit]), if_neg (by simp [hlo]), hstate]
    dsimp only
    rw [hbusy]
    rfl
  unfold scalarFail
  rw [hwrite]
  dsimp only
  rw [if_neg (by simp [valueFits, hv, hidle]), if_neg (by simp [hcond])]

/-- A clear in range, where nothing waits behind its effect. -/
theorem commandWrite_clear {e : Entry} (h : e ∈ clearEntries) {s : State} (hs : s.blk.Serving) (node : Nat) {v : Nat}
    (hv : v < 256 ^ e.lo) (hr : e.rng.ok v = true) {m : Store × Blk} (hm : scalarEffect e v (s.mem, s.blk) = m) (hq : m.2.Calm) :
    commandWrite node e.key v s = { s with mem := m.1, blk := orderBlk s.blk (m.2.answered node e.key) } := by
  obtain ⟨hidle, hboot⟩ := hs
  obtain ⟨-, -, -, hcmd, hpwr, -⟩ := kind_clear e h
  exact commandWrite_accepted hidle (entryAt_clear e h) hv (scalarFail_clear h s.mem hboot hr) hcmd hpwr hm hq

end Sys2Proof.Machine
end

section
/-! 14_dictionary.md R351: the clear entries, as writes of the dictionary. -/

namespace Sys2Proof.Machine

variable {rs ks : List Nat} {a b : Blk}

/-- No event, no order of events. -/
theorem orderEvents_none (a b : Blk) (he : b.flt.ehSeq = a.flt.ehSeq) : orderEvents a b = b := by
  unfold orderEvents
  dsimp only
  rw [he, subMod_self]
  rfl

/-- One record that is put in order stays where it is. -/
theorem orderBlk_few (a b : Blk) (he : b.flt.ehSeq = a.flt.ehSeq) (ht : b.flt.trOld.length - a.flt.trOld.length < 2) :
    orderBlk a b = b := by
  unfold orderBlk
  rw [orderEvents_none a b he]
  unfold orderTrace orderTraceFrom
  dsimp only
  rw [if_pos (by simp [ht])]

/-- A clear whose effect enters no event and no trace record: its effect and its answer. -/
theorem commandWrite_clear_plain {e : Entry} (h : e ∈ clearEntries) {s : State} (hs : s.blk.Serving) (node : Nat) {v : Nat}
    (hv : v < 256 ^ e.lo) (hr : e.rng.ok v = true) {m : Store × Blk} (hm : scalarEffect e v (s.mem, s.blk) = m) (hq : m.2.Calm)
    (hevents : m.2.flt.ehSeq = s.blk.flt.ehSeq) (htrace : m.2.flt.trOld = s.blk.flt.trOld) :
    commandWrite node e.key v s = { s with mem := m.1, blk := m.2.answered node e.key } := by
  rw [commandWrite_clear h hs node hv hr hm hq, orderBlk_same s.blk (m.2.answered node e.key) hevents htrace]

/-! ### What each clear does -/

theorem doFaultAck_eq (v : Nat) (b : Blk) : doFaultAck v b = { b with flt := { b.flt with
    out := b.flt.out - Nat.land b.flt.out (maskOf 3 (fun i => bit v i && !b.setNow i)) } } := rfl

theorem Blk.clearLocks_eq (b : Blk) (v : Nat) : b.clearLocks v = b.setReg K.MX_LOCK_STATUS (b.reg K.MX_LOCK_STATUS
    - Nat.land (b.reg K.MX_LOCK_STATUS) (maskOf 10 (fun t => bit v t && !b.setNow (512 + t)))) := rfl

/-- A map of a table's values that leaves what an unlisted key reads as. -/
theorem Tab.get_map {α : Type} (d : Nat → α) (g : Nat → α → α) (hd : ∀ k, g k (d k) = d k) (m : Tab α) (k : Nat) :
    Tab.get d (m.map (fun x => (x.1, g x.1 x.2))) k = g k (Tab.get d m k) := by
  induction m with
  | nil => exact (hd k).symm
  | cons c m ih =>
    rw [List.map_cons, Tab.get_cons, Tab.get_cons, ih]
    by_cases h : c.1 = k
    · rw [if_pos h, if_pos h, h]
    · rw [if_neg h, if_neg h]

/-- A table from which every entry of a key is taken. -/
theorem Tab.get_filter_none {α : Type} (d : Nat → α) (p : Nat × α → Bool) (m : Tab α) (k : Nat)
    (h : ∀ c : Nat × α, c.1 = k → p c = false) : Tab.get d (m.filter p) k = d k := by
  have := Tab.get_append_of_ne d (m.filter p) [] k (fun c hc hk => by simpa [h c hk] using (List.mem_filter.1 hc).2)
  simpa [Tab.get_nil] using this

/-- A status word as a clear of dead-read marks with value `v` leaves it in slot `k` (14_dictionary.md R351). -/
def Blk.readCleared (b : Blk) (v k : Nat) (t : Tile) : Tile :=
  if (v = 255 ∨ k = v) ∧ b.setNow (128 + k) = false then { t with deadRead := false } else t

theorem doDeadReadClear_eq (v : Nat) (b : Blk) :
    doDeadReadClear v b = { b with tiles := b.tiles.map (fun x => (x.1, b.readCleared v x.1 x.2)) } := by
  have h : ∀ x ∈ b.tiles, (if (v = 255 ∨ x.1 = v) ∧ b.setNow (128 + x.1) = false then (x.1, { x.2 with deadRead := false }) else x) =
      (x.1, b.readCleared v x.1 x.2) := by
    intro x _
    unfold Blk.readCleared
    split <;> rfl
  unfold doDeadReadClear
  rw [List.map_congr_left h]

theorem doDeadReadClear_tile (v : Nat) (b : Blk) (k : Nat) : (doDeadReadClear v b).tile k = b.readCleared v k (b.tile k) := by
  rw [doDeadReadClear_eq]
  exact Tab.get_map (fun _ => ({} : Tile)) (b.readCleared v) (fun k => by unfold Blk.readCleared; split <;> rfl) b.tiles k

/-- The hogging flags of port `p` as a clear with value `v` leaves them. -/
def Blk.hogKept (b : Blk) (v p : Nat) : Nat :=
  let old := fieldAt (b.record K.HOG_FLAGS 12) (2 * p) 2
  if v = 255 ∨ p = v then Nat.land old (maskOf 16 (fun i => b.setNow (256 + 16 * p + i))) else old

theorem doHogClear_eq (v : Nat) (b : Blk) :
    doHogClear v b = b.setRec K.HOG_FLAGS ((List.range 6).flatMap (fun p => leBytes 2 (b.hogKept v p))) := rfl

theorem leVal_lt (bs : List Byte) : leVal bs < 256 ^ bs.length := by
  induction bs with
  | nil => decide
  | cons x xs ih =>
    have hx : x.toNat < 256 := x.isLt
    rw [leVal, List.length_cons, Nat.pow_succ]
    omega

theorem fieldAt_lt (bs : List Byte) (a n : Nat) : fieldAt bs a n < 256 ^ n := by
  have h : (slice bs a n).length = n := by
    unfold slice
    simp only [List.length_append, List.length_replicate, List.length_take, List.length_drop]
    omega
  have := leVal_lt (slice bs a n)
  rwa [h] at this

theorem Blk.hogKept_lt (b : Blk) (v p : Nat) : b.hogKept v p < 65536 := by
  have h := fieldAt_lt (b.record K.HOG_FLAGS 12) (2 * p) 2
  unfold Blk.hogKept
  dsimp only
  split
  · exact Nat.lt_of_le_of_lt Nat.and_le_left h
  · exact h

/-- The two bytes of each port's flags. -/
theorem fieldAt_hogFlags (g : Nat → Nat) {p : Nat} (hp : p < 6) :
    fieldAt ((List.range 6).flatMap (fun p => leBytes 2 (g p))) (2 * p) 2 = g p % 65536 := by
  have h : fieldAt ((List.range 6).flatMap (fun p => leBytes 2 (g p))) (2 * p) 2 = leVal (leBytes 2 (g p)) := by
    have hcases : p = 0 ∨ p = 1 ∨ p = 2 ∨ p = 3 ∨ p = 4 ∨ p = 5 := by omega
    rcases hcases with rfl | rfl | rfl | rfl | rfl | rfl <;> rfl
  rw [h]
  exact leVal_leBytes 2 (g p)

theorem doHogClear_flags (v : Nat) (b : Blk) {p : Nat} (hp : p < 6) :
    fieldAt ((doHogClear v b).recAt K.HOG_FLAGS) (2 * p) 2 = b.hogKept v p := by
  rw [doHogClear_eq, Blk.recAt_setRec, if_pos rfl, fieldAt_hogFlags _ hp, Nat.mod_eq_of_lt (b.hogKept_lt v p)]

/-! ### The error history -/

/-- What a clear of the error history leaves of it: nothing but `es`, from position 1 on. -/
theorem foldl_setRec_history (es : List (List Byte)) (h : es.length ≤ 16) (b : Blk) (i : Nat) :
    (((List.range es.length).zip es).foldl (fun b x => b.setRec (K.EH_COUNT + (x.1 % 16 + 1)) x.2) b).recAt (K.EH_COUNT + (i + 1)) =
      (es[i]?).getD (b.recAt (K.EH_COUNT + (i + 1))) := by
  obtain ⟨l, rfl⟩ : ∃ l, es = l.reverse := ⟨es.reverse, (List.reverse_reverse es).symm⟩
  induction l with
  | nil => rfl
  | cons e l ih =>
    rw [List.reverse_cons] at h ⊢
    generalize l.reverse = es at h ih ⊢
    have hl : es.length < 16 := by
      rw [List.length_append, List.length_singleton] at h
      omega
    have hz : (List.range (es ++ [e]).length).zip (es ++ [e]) = (List.range es.length).zip es ++ [(es.length, e)] := by
      rw [List.length_append, List.length_singleton, List.range_succ, List.zip_append (by simp)]
      rfl
    rw [hz, List.foldl_append, List.foldl_cons, List.foldl_nil, Blk.recAt_setRec, ih (by omega), Nat.mod_eq_of_lt hl]
    by_cases hie : i = es.length
    · simp [hie]
    · rw [if_neg (by omega)]
      by_cases hlt : i < es.length
      · simp [List.getElem?_append_left hlt]
      · simp [List.getElem?_eq_none (show es.length ≤ i by omega), List.getElem?_eq_none (show (es ++ [e]).length ≤ i by simp; omega)]

/-- The error history without an entry. -/
def Blk.noHistory (b : Blk) : Blk :=
  { b with recs := b.recs.filter (fun c => !(decide (K.EH_COUNT < c.1) && decide (c.1 ≤ K.EH_COUNT + 16))) }

theorem Blk.noHistory_recAt (b : Blk) {i : Nat} (hi : i < 16) : b.noHistory.recAt (K.EH_COUNT + (i + 1)) = [] :=
  Tab.get_filter_none (fun _ => []) _ b.recs _ (fun c hc => by simp [hc]; omega)

theorem Blk.noHistory_only (b : Blk) : Only [] [] b b.noHistory :=
  ⟨rfl, fun _ _ _ => rfl, fun k hk _ => Tab.get_filter (fun _ => []) _ b.recs k (fun c hc => by subst hc; simp [logRec] at hk ⊢; omega),
    fun _ h => h⟩

/-- The error history of the events `es` of this cycle alone. -/
def Blk.historyOf (b : Blk) (es : List (List Byte)) : Blk :=
  (((List.range es.length).zip es).drop (es.length - 16)).foldl (fun b x => b.setRec (K.EH_COUNT + (x.1 % 16 + 1)) x.2) b.noHistory

theorem doEhClear_eq (b : Blk) : doEhClear b =
    ((b.historyOf b.flt.today).setReg K.EH_COUNT (min b.flt.today.length 16)).setReg K.EH_NEXT (b.flt.today.length % 16 + 1) := rfl

theorem Blk.historyOf_keeps (b : Blk) (es : List (List Byte)) :
    (b.historyOf es).flt = b.flt ∧ (b.historyOf es).trace = b.trace ∧ (b.historyOf es).regs = b.regs :=
  List.foldlRecOn (motive := fun (c : Blk) => c.flt = b.flt ∧ c.trace = b.trace ∧ c.regs = b.regs) _ _ ⟨rfl, rfl, rfl⟩
    (fun _ h _ _ => h)

theorem Blk.historyOf_only (b : Blk) (es : List (List Byte)) : Only [] [] b (b.historyOf es) :=
  Only.foldl _ _ (fun _ _ _ hc => hc.setRec _ _ (.inr (logRec_pos _))) _ b.noHistory_only

theorem doEhClear_keeps (b : Blk) : (doEhClear b).flt = b.flt ∧ (doEhClear b).trace = b.trace
    ∧ (doEhClear b).reg K.EH_TOTAL = b.reg K.EH_TOTAL := by
  obtain ⟨hflt, htrace, hregs⟩ := b.historyOf_keeps b.flt.today
  rw [doEhClear_eq]
  refine ⟨by rw [Blk.setReg_flt, Blk.setReg_flt, hflt], by rw [Blk.setReg_trace, Blk.setReg_trace, htrace], ?_⟩
  rw [Blk.reg_setReg_ne _ _ (by decide), Blk.reg_setReg_ne _ _ (by decide), Blk.reg, hregs]
  rfl

theorem doEhClear_only (b : Blk) : Only [] [] b (doEhClear b) :=
  Only.setReg _ _ (.inr (by decide)) (Only.setReg _ _ (.inr (by decide)) (b.historyOf_only _))

theorem doEhClear_history {b : Blk} (h : b.flt.today.length ≤ 16) : (doEhClear b).reg K.EH_COUNT = b.flt.today.length
    ∧ (doEhClear b).reg K.EH_NEXT = b.flt.today.length % 16 + 1
    ∧ ∀ i, i < 16 → (doEhClear b).recAt (K.EH_COUNT + (i + 1)) = (b.flt.today[i]?).getD [] := by
  rw [doEhClear_eq]
  refine ⟨?_, Blk.reg_setReg_self _ _ _, fun i hi => ?_⟩
  · rw [Blk.reg_setReg_ne _ _ (by decide), Blk.reg_setReg_self, Nat.min_eq_left h]
  · rw [Blk.recAt_setReg, Blk.recAt_setReg, Blk.historyOf, Nat.sub_eq_zero_of_le h, List.drop_zero, foldl_setRec_history _ h,
      Blk.noHistory_recAt _ hi]

/-! ### The trace -/

theorem doTraceClear_regs (b : Blk) :
    (doTraceClear b).reg K.TRACE_NEXT = 32 * (b.flt.trOld.length + b.flt.trDrop.length) % 262144
    ∧ (doTraceClear b).reg K.TRACE_FILL = min (32 * (b.flt.trOld.length + b.flt.trDrop.length)) 262144
    ∧ (doTraceClear b).reg K.TRACE_LOST = b.reg K.TRACE_LOST - b.flt.trDrop.length := by
  unfold doTraceClear
  simp only [Blk.reg_setReg]
  exact ⟨rfl, rfl, rfl⟩

theorem doTraceClear_only (b : Blk) : Only [] [] b (doTraceClear b) :=
  Only.setReg _ _ (.inr (by decide)) (Only.setReg _ _ (.inr (by decide)) (Only.setReg _ _ (.inr (by decide))
    ⟨rfl, fun _ _ _ => rfl, fun _ _ _ => rfl, fun _ h => h⟩))

theorem doTraceClear_trOld_length (b : Blk) : (doTraceClear b).flt.trOld.length = b.flt.trOld.length + b.flt.trDrop.length := by
  show (((List.range (b.flt.trOld.length + b.flt.trDrop.length)).map _).reverse).length = _
  simp

/-- A cycle that has made no record leaves nothing in the trace to move. -/
theorem doTraceClear_trace_none {b : Blk} (ho : b.flt.trOld = []) (hd : b.flt.trDrop = []) : (doTraceClear b).trace = b.trace := by
  unfold doTraceClear
  simp only [ho, hd]
  rfl

/-- The one record of this cycle, that a full buffer had lost, is written at offset 0. -/
theorem doTraceClear_trace_lost {b : Blk} {r : List Byte} (ho : b.flt.trOld = []) (hd : b.flt.trDrop = [r]) :
    Tab.get (fun _ => []) (doTraceClear b).trace 0 = r := by
  have h : (doTraceClear b).trace = Tab.set (fun _ => []) b.trace 0 r := by
    unfold doTraceClear
    simp only [ho, hd]
    rfl
  rw [h, Tab.get_set_self]

/-- The one record of this cycle moves to offset 0, and where it stood stands what was there before. -/
theorem doTraceClear_trace_written {b : Blk} {place : Nat} {old : List Byte} (ho : b.flt.trOld = [(place, old)])
    (hd : b.flt.trDrop = []) (hp : place ≠ 0) :
    Tab.get (fun _ => []) (doTraceClear b).trace 0 = Tab.get (fun _ => []) b.trace place
    ∧ Tab.get (fun _ => []) (doTraceClear b).trace place = old := by
  have h : (doTraceClear b).trace =
      Tab.set (fun _ => []) (Tab.set (fun _ => []) b.trace place old) 0 (Tab.get (fun _ => []) b.trace place) := by
    unfold doTraceClear
    simp only [ho, hd]
    rfl
  rw [h, Tab.get_set_self, Tab.get_set_ne _ _ _ hp, Tab.get_set_self]
  exact ⟨rfl, rfl⟩

/-! ### The commands -/

section
variable {s : State} (hc : s.blk.Calm) (hs : s.blk.Serving) (node : Nat) {v : Nat}
include hc hs

theorem exec_faultAck (hv : v < 8) : exec (.faultAck node v) s = s.becomes ((doFaultAck v s.blk).answered node K.FAULT_ACK) := by
  have hr : ∀ v, v < 8 → (Range.mask 0x7).ok v = true := by decide
  exact congrArg Host.Outcome.next (commandWrite_clear_plain (e := ⟨K.FAULT_ACK, .uns, .wo, 1, 1, .mask 0x7⟩)
    (by simp [clearEntries]) hs node (Nat.lt_trans hv (by decide)) (hr v hv) rfl hc rfl rfl)

theorem exec_syncLostClear_zero : exec (.syncLostClear node 0) s = s.becomes (s.blk.answered node K.SYNC_LOST_CLEAR) :=
  congrArg Host.Outcome.next (commandWrite_clear_plain (e := ⟨K.SYNC_LOST_CLEAR, .uns, .wo, 1, 1, .span 0 1⟩)
    (by simp [clearEntries]) hs node (by decide) (by decide) rfl hc rfl rfl)

theorem exec_syncLostClear_one : exec (.syncLostClear node 1) s =
    s.becomes ((if s.blk.setNow 16 then s.blk else s.blk.setSync 1 false).answered node K.SYNC_LOST_CLEAR) :=
  congrArg Host.Outcome.next (commandWrite_clear_plain (e := ⟨K.SYNC_LOST_CLEAR, .uns, .wo, 1, 1, .span 0 1⟩)
    (m := (s.mem, if s.blk.setNow 16 then s.blk else s.blk.setSync 1 false))
    (by simp [clearEntries]) hs node (by decide) (by decide) rfl (by dsimp only; split <;> exact hc)
    (by dsimp only; split <;> rfl) (by dsimp only; split <;> rfl))

theorem exec_aniseColdClear_zero : exec (.aniseColdClear node 0) s = s.becomes (s.blk.answered node K.ANISE_COLD_CLEAR) :=
  congrArg Host.Outcome.next (commandWrite_clear_plain (e := ⟨K.ANISE_COLD_CLEAR, .uns, .wo, 1, 1, .span 0 1⟩)
    (by simp [clearEntries]) hs node (by decide) (by decide) rfl hc rfl rfl)

theorem exec_aniseColdClear_one : exec (.aniseColdClear node 1) s =
    s.becomes ((if s.blk.setNow 700 then s.blk else s.blk.idFlag 1 false).answered node K.ANISE_COLD_CLEAR) :=
  congrArg Host.Outcome.next (commandWrite_clear_plain (e := ⟨K.ANISE_COLD_CLEAR, .uns, .wo, 1, 1, .span 0 1⟩)
    (m := (s.mem, if s.blk.setNow 700 then s.blk else s.blk.idFlag 1 false))
    (by simp [clearEntries]) hs node (by decide) (by decide) rfl (by dsimp only; split <;> exact hc)
    (by dsimp only; split <;> rfl) (by dsimp only; split <;> rfl))

theorem exec_deadReadClear (hv : v < 128 ∨ v = 255) :
    exec (.deadReadClear node v) s = s.becomes ((doDeadReadClear v s.blk).answered node K.DEAD_READ_CLEAR) := by
  refine congrArg Host.Outcome.next (commandWrite_clear_plain (e := ⟨K.DEAD_READ_CLEAR, .uns, .wo, 1, 1, .spanOr 0 127 255⟩)
    (by simp [clearEntries]) hs node ?_ ?_ rfl hc rfl rfl)
  · show v < 256; omega
  · simp [Range.ok]; omega

theorem exec_hogFlagsClear (hv : v < 6 ∨ v = 255) :
    exec (.hogFlagsClear node v) s = s.becomes ((doHogClear v s.blk).answered node K.HOG_FLAGS_CLEAR) := by
  refine congrArg Host.Outcome.next (commandWrite_clear_plain (e := ⟨K.HOG_FLAGS_CLEAR, .uns, .wo, 1, 1, .spanOr 0 5 255⟩)
    (by simp [clearEntries]) hs node ?_ ?_ rfl hc rfl rfl)
  · show v < 256; omega
  · simp [Range.ok]; omega

theorem exec_mxLockClear (hv : v < 1024) :
    exec (.mxLockClear node v) s = s.becomes ((s.blk.clearLocks v).answered node K.MX_LOCK_CLEAR) := by
  refine congrArg Host.Outcome.next (commandWrite_clear_plain (e := ⟨K.MX_LOCK_CLEAR, .uns, .wo, 2, 2, .mask 0x3FF⟩)
    (by simp [clearEntries]) hs node (Nat.lt_trans hv (by decide)) ?_ rfl hc rfl rfl)
  have : Nat.land v 0x3FF = v := (Nat.and_two_pow_sub_one_eq_mod v 10).trans (Nat.mod_eq_of_lt hv)
  exact beq_iff_eq.2 this

theorem exec_ehCountClear : exec (.ehCountClear node 0) s = .next { s with
    mem := s.mem.withRecord K.EH_COUNT 1 0,
    blk := (doEhClear ((s.blk.commitRecord K.EH_COUNT).setReg K.EH_COUNT 0)).answered node K.EH_COUNT } := by
  obtain ⟨hflt, -, -⟩ := doEhClear_keeps ((s.blk.commitRecord K.EH_COUNT).setReg K.EH_COUNT 0)
  obtain ⟨-, -, -, htrace⟩ := id hc
  have hcommitted : ((s.blk.commitRecord K.EH_COUNT).setReg K.EH_COUNT 0).Calm := hc
  exact congrArg Host.Outcome.next (commandWrite_clear_plain (e := ⟨K.EH_COUNT, .uns, .rw, 1, 1, .span 0 0⟩)
    (m := (s.mem.withRecord K.EH_COUNT 1 0, doEhClear ((s.blk.commitRecord K.EH_COUNT).setReg K.EH_COUNT 0)))
    (by simp [clearEntries]) hs node (by decide) (by decide) rfl
    ((doEhClear_only _).calm hcommitted (by rw [hflt]; exact htrace)) (by rw [hflt]; rfl) (by rw [hflt]; rfl))

theorem exec_traceClear : exec (.traceClear node 1) s =
    s.becomes (orderBlk s.blk ((doTraceClear s.blk).answered node K.TRACE_CLEAR)) :=
  congrArg Host.Outcome.next (commandWrite_clear (e := ⟨K.TRACE_CLEAR, .uns, .wo, 1, 1, .span 1 1⟩)
    (by simp [clearEntries]) hs node (by decide) (by decide) rfl hc)

end

/-- Settles O56, by the effect of each clear entry once its write is accepted. -/
theorem clearEntriesClearWhatTheyName : Obligations.ClearEntriesClearWhatTheyName := by
  unfold Obligations.ClearEntriesClearWhatTheyName
  intro s node v hc hs
  refine ⟨fun hv => ?_, exec_syncLostClear_zero hc hs node, exec_syncLostClear_one hc hs node, fun hv => ?_, fun ht => ?_, fun hv => ?_,
    fun hv => ?_, ?_, exec_aniseColdClear_zero hc hs node, exec_aniseColdClear_one hc hs node⟩
  · have hexec := exec_faultAck hc hs node hv
    rw [doFaultAck_eq] at hexec
    exact ⟨_, bit_clear (n := 3) hv s.blk.setNow s.blk.flt.out, hexec⟩
  · refine ⟨_, exec_deadReadClear hc hs node hv, ⟨rfl, rfl⟩,
      fun k => (Blk.answered_tile ..).trans (doDeadReadClear_tile v s.blk k), ?_⟩
    dsimp only
    rw [doDeadReadClear_eq]
    rfl
  · obtain ⟨hflt, htrace, htotal⟩ := doEhClear_keeps ((s.blk.commitRecord K.EH_COUNT).setReg K.EH_COUNT 0)
    obtain ⟨hcount, hnext, hrecs⟩ := doEhClear_history (b := (s.blk.commitRecord K.EH_COUNT).setReg K.EH_COUNT 0) ht
    have ho : Only [] [] (s.blk.commitRecord K.EH_COUNT) (doEhClear ((s.blk.commitRecord K.EH_COUNT).setReg K.EH_COUNT 0)) :=
      (Only.setReg _ _ (.inr (by decide)) (Only.refl _ _ _)).trans (doEhClear_only _)
    exact ⟨_, exec_ehCountClear hc hs node, rfl, rfl, (Blk.answered_reg ..).trans hcount, (Blk.answered_reg ..).trans hnext,
      fun i hi => (Blk.answered_recAt ..).trans (hrecs i hi),
      (Blk.answered_reg ..).trans (htotal.trans (Blk.reg_setReg_ne _ _ (by decide))), (Blk.answered_trace ..).trans htrace,
      (Blk.answered_flt ..).trans hflt, ho.answered node K.EH_COUNT⟩
  · refine ⟨_, exec_hogFlagsClear hc hs node hv, ⟨rfl, rfl⟩, fun p hp => ?_,
      (Only.setRec _ _ (.inl (by simp)) (Only.refl _ _ s.blk)).answered node K.HOG_FLAGS_CLEAR⟩
    rw [Blk.answered_recAt, doHogClear_flags v s.blk hp]
    unfold Blk.hogKept
    dsimp only
    rw [land_maskOf]
    rfl
  · refine ⟨_, exec_mxLockClear hc hs node hv, ⟨rfl, rfl⟩, fun i => ?_,
      (Only.setReg _ _ (.inl (by simp)) (Only.refl _ _ s.blk)).answered node K.MX_LOCK_CLEAR⟩
    rw [Blk.answered_reg, Blk.clearLocks_eq, Blk.reg_setReg_self]
    exact bit_clear (n := 10) hv (fun t => s.blk.setNow (512 + t)) _ i
  · obtain ⟨hnext, hfill, hlost⟩ := doTraceClear_regs s.blk
    have ho : Only [K.TRACE_NEXT, K.TRACE_FILL] [] (s.blk.answered node K.TRACE_CLEAR) ((doTraceClear s.blk).answered node K.TRACE_CLEAR) :=
      ((doTraceClear_only s.blk).mono (by simp) (by simp)).answered node K.TRACE_CLEAR
    have hone (h : s.blk.flt.trDrop.length < 2) : orderBlk s.blk ((doTraceClear s.blk).answered node K.TRACE_CLEAR) =
        (doTraceClear s.blk).answered node K.TRACE_CLEAR :=
      orderBlk_few _ _ rfl (by
        have hlen := doTraceClear_trOld_length s.blk
        show (doTraceClear s.blk).flt.trOld.length - _ < 2
        omega)
    refine ⟨_, exec_traceClear hc hs node, ⟨rfl, rfl⟩, ⟨(orderBlk_reg ..).trans hnext, (orderBlk_reg ..).trans hfill⟩,
      (orderBlk_reg ..).trans hlost, fun hold hdrop => ?_, fun r hold hdrop => ?_, fun place old hold hdrop hp _ _ => ?_, ho.ordered s.blk⟩
    · dsimp only
      rw [hone (by simp [hdrop])]
      exact doTraceClear_trace_none hold hdrop
    · dsimp only
      rw [hone (by simp [hdrop])]
      exact doTraceClear_trace_lost hold hdrop
    · dsimp only
      rw [hone (by simp [hdrop])]
      exact doTraceClear_trace_written hold hdrop hp

end Sys2Proof.Machine
end

section
/-! 08_route_merge.md R174, R176: a gather queue in which two entries have one sequence number. -/

namespace Sys2Proof.Machine

/-! ### A number that stands twice in the gather queue -/

/-- A `TGATHER` in index order on port 2 that has taken all of its indices out of staging. -/
def twinOp : Op :=
  { id := 1, opn := true, n := 1, total := 5,
    d := { opc := 0x30, port := 2, endpt := 3, srcTiles := 1, nidx := 5, opf := true, deadline := openCycle } }

/-- The entry of its next transfer: an index fault. -/
def twinEntry : GEntry := { seq := 1, idx := 64, fault := true }

/-- Its queue: an entry whose row would hold, so that it waits and comes first in index order, then `twinEntry`, then another entry of the
same number, whose row has been sent. -/
def twinBlk : Blk :=
  { lc := .running, force := [(K.TICK_LEN, 30000), (K.GUARD, 1000)],
    tiles := [(0, { inUse := true, state := .loading, shape := 0x102 })], ops := [twinOp], reqs := [(32, { queue := [1] })],
    gather := [{ seq := 0, idx := 0 }, twinEntry, { seq := 1, idx := 1, sent := true, beat := some {} }], gNext := 5 }

/-- The transfer of `twinEntry`. -/
def twinCand : Cand := { id := 0, op := 1, endpt := 3, qs := [0], claims := [(0, busNo 3 false)], units := [2], pick := 2 }

theorem exec_sumacRound_noUpset (p : Nat) (s : State) : exec (.sumacRound p [] [] []) s = .next (s.round p [] []) := rfl

theorem twinBlk_calm : twinBlk.Calm ∧ twinBlk.moving = true := by decide

/-- The round of port 2 makes the one transfer of `twinEntry`. -/
theorem twinBlk_alone : twinBlk.AloneOn {} 2 [] twinCand ∧ twinBlk.active 2 = true := by decide +kernel

/-- Nothing is left in staging that the round could take in. -/
theorem twinBlk_openRound_gather : (twinBlk.openRound 2 []).gather = twinBlk.gather := rfl

/-- `twinEntry` is the first of its number, and no entry that is still to be sent has its beat. -/
theorem twinBlk_entry : twinBlk.gather.find? (fun y => y.seq == twinEntry.seq) = some twinEntry
    ∧ ∀ y ∈ twinBlk.gather, y.sent = false → y.beat = none := by decide

/-- It is not the turn of `twinEntry`: its row stays in the queue (R176). -/
theorem twinBlk_waits : ¬(twinOp.d.opf = false ∨ twinBlk.gather.find? (fun y => !y.sent) = some twinEntry) := by decide

/-- The round leaves the entry that has been sent as sent. -/
theorem twinBlk_round : (({ blk := twinBlk } : State).round 2 [] []).blk.gather.map (fun y => y.sent) = [false, false, true] := by
  decide +kernel

/-- Refutes O30: where an entry's row stays in the queue, the statement has every entry of its number as not sent. Its premises do not say
that the numbers in the queue are distinct, and the transfer of `twinEntry` leaves the other entry of its number as sent. -/
theorem not_scheduledReadSendsTheStoredRow : ¬ Obligations.ScheduledReadSendsTheStoredRow := by
  unfold Obligations.ScheduledReadSendsTheStoredRow
  intro h
  obtain ⟨-, -, hround, -⟩ := h
  obtain ⟨hcalm, hmoving⟩ := twinBlk_calm
  obtain ⟨halone, hactive⟩ := twinBlk_alone
  obtain ⟨hfirst, hunread⟩ := twinBlk_entry
  obtain ⟨-, -, -, hentry⟩ :=
    hround { blk := twinBlk } 2 twinOp twinCand hcalm hmoving rfl rfl rfl rfl rfl rfl (by decide) halone rfl hactive rfl
  obtain ⟨hfault, -⟩ := hentry twinEntry rfl hfirst rfl hunread
  obtain ⟨t, bt, ⟨hexec, -⟩, ⟨-, -, hgather, -⟩, -⟩ := hfault (.inl rfl)
  rw [exec_sumacRound_noUpset, Host.Outcome.next.injEq] at hexec
  subst hexec
  have hsent := congrArg (List.map (fun y : GEntry => y.sent)) hgather
  rw [twinBlk_openRound_gather, twinBlk_round, decide_eq_false twinBlk_waits] at hsent
  have hsame : [false, false, true] = [false, false, false] := hsent
  exact absurd hsame (by decide)

end Sys2Proof.Machine
end

section
/-! 16_faults.md R380, 06_sumac.md R143: a round that grants an open write whose conversion stage has failed its comparison before. -/

namespace Sys2Proof.Machine

/-! ### An open write through a failed conversion stage -/

/-- An open `TTAKE` of FP32 rows of 32 bytes on port 4: its beats pass the conversion stage. -/
def failedStageOp : Op :=
  { id := 1, opn := true, total := 2, dstShape := 0x102,
    d := { opc := 0x22, port := 4, endpt := 2, req := 2, nrows := 2, slotCycle := openCycle, deadline := openCycle } }

/-- Its requester has the port to itself. The stage has failed since the last cold reset, and has not been used since. -/
def failedStageBlk : Blk :=
  { lc := .running, force := [(K.TICK_LEN, 30000), (K.GUARD, 1000)],
    tiles := [(0, { inUse := true, state := .loading, shape := 0x102, writers := 1 })], ops := [failedStageOp],
    reqs := [(66, { queue := [1] })], flt := { badConv := some 4 } }

/-- A good beat for its first row. -/
def failedStageBeat : Beat := mkBeat [] [] failedStageBlk.stamp (qenOf [0])

def failedStageOffer : Offer := { endpt := 2, beat := failedStageBeat }

/-- The transfer of that beat. -/
def failedStageCand : Cand :=
  { id := 2, op := 1, endpt := 2, qs := [0], claims := [(9, 0), (0, busNo 2 true)], units := [4, 8], offer := some failedStageBeat }

theorem exec_sumacRound_offers (p : Nat) (offers : List Offer) (s : State) :
    exec (.sumacRound p offers [] []) s = .next (s.round p offers []) := rfl

/-- No premise of a calm block speaks of the stage: `convUsed` is still low. -/
theorem failedStageBlk_calm : failedStageBlk.Calm ∧ failedStageBlk.moving = true := by decide

theorem failedStageBlk_alone : failedStageBlk.AloneOn {} 4 [failedStageOffer] failedStageCand := by decide +kernel

theorem failedStageBeat_good : failedStageBlk.GoodBeat failedStageBeat (takeQuarters failedStageOp) := by decide +kernel

/-- The take uses the stage, which fails again: Doluo enters Safe, and the row write with it is gone (15_states_power.md R355). -/
theorem failedStageBlk_round : (({ blk := failedStageBlk } : State).round 4 [failedStageOffer] []).blk.lc = .safe
    ∧ (({ blk := failedStageBlk } : State).round 4 [failedStageOffer] []).blk.writes = [] := by decide +kernel

/-- Refutes O35: a granted `TTAKE` whose beat is converted leaves no row write where the conversion stage has failed before, since its use
takes the cell out. The premises of the open write do not ask for a sound stage (`badConv` is none). -/
theorem not_roundGrantsTheOneCandidate : ¬ Obligations.RoundGrantsTheOneCandidate := by
  unfold Obligations.RoundGrantsTheOneCandidate
  intro h
  obtain ⟨-, -, -, hwrite⟩ := h
  obtain ⟨hcalm, hmoving⟩ := failedStageBlk_calm
  obtain ⟨hgood, -⟩ := hwrite { blk := failedStageBlk } 4 failedStageOp failedStageBeat failedStageCand hcalm hmoving rfl rfl rfl rfl
    (by decide) (.inr (.inl rfl)) failedStageBlk_alone rfl rfl rfl
  obtain ⟨t, w, hexec, -, hwrites, -⟩ := hgood failedStageBeat_good rfl
  obtain ⟨-, hnone⟩ := failedStageBlk_round
  have ht : ({ blk := failedStageBlk } : State).round 4 [failedStageOffer] [] = t :=
    Host.Outcome.next.inj ((exec_sumacRound_offers 4 [failedStageOffer] _).symm.trans hexec)
  rw [← ht, hnone] at hwrites
  exact absurd hwrites (List.append_ne_nil_of_right_ne_nil _ (List.cons_ne_nil w [])).symm

end Sys2Proof.Machine
end

section
/-! 05_ports.md R127, 15_states_power.md R366: a delivery that ends an operation for which the save engine has waited. -/

namespace Sys2Proof.Machine

/-! ### A feed in the role of an image transfer -/

/-- An open feed with all its transfers made. Its role is that of a transfer of the save engine's image, which no feed of a run has. -/
def imageFeedOp : Op := { id := 1, role := .image, opn := true, taken := true, d := { opc := 0x20 } }

/-- Its last beat, in the return buffer. -/
def imageFeedBeat : OutBeat := { endpt := 0, port := 0, op := 1, beat := {}, due := 0, opn := true }

/-- A restore is under way, whose next transfer waits while an operation of that role is there. -/
def imageFeedBlk : Blk :=
  { lc := .running, ops := [imageFeedOp], opNo := 2, outs := [imageFeedBeat], sr := { phase := 2, isSave := false },
    xfers := [{ tn := 9, op := 1, store := false, cfirst := 0 }] }

theorem imageFeedBlk_calm : imageFeedBlk.Calm := by decide

theorem imageFeedBlk_oldest : imageFeedBlk.oldestOut 0 = some imageFeedBeat ∧ imageFeedBlk.busLow 0 = false := by decide

theorem imageFeedBlk_op : imageFeedBlk.op? imageFeedBeat.op = some imageFeedOp := by decide

/-- With `READY` high the oldest beat of a bus that is not low is delivered. -/
theorem exec_openReadDeliver_ready {s : State} {e : Nat} {x : OutBeat} (hold : s.blk.oldestOut e = some x) (hbus : s.blk.busLow e = false) :
    exec (.openReadDeliver e true) s = .next { s with blk := orderBlk s.blk ((deliverOut s.blk x).serve s.mem) } := by
  show execOpenReadDeliver e true s = _
  unfold execOpenReadDeliver State.cyc State.upd State.ordered
  dsimp only
  rw [hold, hbus]
  rfl

/-- The block once the beat has been delivered, and what follows has been served. -/
def imageFeedAfter : Blk := (deliverOut imageFeedBlk imageFeedBeat).serve {}

/-- The delivery ends the feed, and the engine starts its next transfer: that one's command beat enters the return buffer of `LS-O`. -/
theorem imageFeedAfter_outs : imageFeedAfter.outs.map (fun y => (y.endpt, y.cmd)) = [(9, some 0)] := by decide +kernel

/-- Refutes O36: where the delivered beat is the last of an operation whose role is that of an image transfer, the end of the operation lets
the save engine start its next transfer, and the return buffers hold more than what the delivery left. The premises on the operation of the
beat do not name its role. -/
theorem not_buffersHandshakesAndPenalties : ¬ Obligations.BuffersHandshakesAndPenalties := by
  unfold Obligations.BuffersHandshakesAndPenalties
  intro h
  obtain ⟨hdeliver, -⟩ := h
  obtain ⟨-, hbeat⟩ := hdeliver { blk := imageFeedBlk }
  obtain ⟨hold, hbus⟩ := imageFeedBlk_oldest
  have hfeed : ∀ o, imageFeedBlk.op? imageFeedBeat.op = some o → o.d.opc ≠ 0x40 ∧ o.d.opc ≠ 0x51 := by
    intro o ho
    rw [imageFeedBlk_op, Option.some.injEq] at ho
    subst ho
    decide
  obtain ⟨-, t, hexec, -, -, -, -, -, -, houts, -⟩ := hbeat 0 imageFeedBeat hold hbus imageFeedBlk_calm rfl hfeed
  rw [exec_openReadDeliver_ready hold hbus, Host.Outcome.next.injEq] at hexec
  have hleft : imageFeedAfter.outs = dropOut imageFeedBeat imageFeedBlk.outs := by
    rw [← houts, ← hexec]
    exact (orderBlk_only imageFeedBlk imageFeedAfter).outs_eq.symm
  have hempty := imageFeedAfter_outs
  rw [hleft] at hempty
  exact absurd hempty (by decide)

end Sys2Proof.Machine
end
